-- ==== Sys2Proof/Word.lean ====
section
/-! DEFINITION. The bit-vector widths the wire layouts of chapter 11 use, and the range of a rail
coordinate (0.5, 0.7). Quantities that the manual computes with exact integers (0.8, Arithmetic) are
`Int` or `Nat` in the model and are not bit vectors. -/
namespace Sys2Proof

/-- One byte of a frame, record or lane message (R183). -/
abbrev Byte := BitVec 8

/-- A two-byte field (R183). -/
abbrev Word16 := BitVec 16

/-- A four-byte field (R183). -/
abbrev Word32 := BitVec 32

/-- The least rail coordinate, −2,147,483,648 (0.7, CP). -/
abbrev tickMin : Int := -2147483648

/-- The greatest rail coordinate, +2,147,483,647 (0.7, CP). -/
abbrev tickMax : Int := 2147483647

end Sys2Proof
end

