-- ==== Sys2Proof/Syntax.lean ====
section
/-! DEFINITION. The commands of the DN-62: one constructor of `Instr` for each row of
spec/opcode_table.json. A row that stands for the execution of a master's command carries the sender
of its frame (node and tag) and its parameters as the fields of the command index (11.3), raw, in
the widths of R183: the range checks are part of each command's meaning. A row that stands for an event of
the part carries what identifies the event (rail, lane, encoder, slot) and what the part reads at it. -/
namespace Sys2Proof

/-- Rail A or rail B; also front-end lane A or B, Cell Window A or B, marker engine A or B (0.6). -/
inductive Rail where
  | a
  | b
  deriving DecidableEq, Repr

/-- The two measuring-wheel encoders (0.4). -/
inductive Encoder where
  | primary
  | secondary
  deriving DecidableEq, Repr

/-- The sign of a tick (R2), also the direction of travel (R5). -/
inductive Direction where
  | forward
  | backward
  deriving DecidableEq, Repr

/-- A master on the Carriage Link (0.3); each owns the report lane of its number (R165). -/
inductive Node where
  | n1
  | n2
  | n3
  deriving DecidableEq, Repr

/-- The header fields of a command frame that its REPLY needs: node and tag (11.6.3). -/
structure Sender where
  node : Node
  tag : Byte
  deriving DecidableEq, Repr

/-- The parameters of an executed command: the fields the command index lists, or a parameter length
that differs from the one the index gives (R179). -/
inductive Params (α : Type) where
  | fields (args : α)
  | wrongLength (n : Nat)
  deriving DecidableEq, Repr

/-- The levels of the encoder and lift inputs at their first samples (R1, R14); true is high. -/
structure InputLevels where
  enc1A : Bool
  enc1B : Bool
  enc2A : Bool
  enc2B : Bool
  lift : Bool
  deriving DecidableEq, Repr

/-- One gate result of a REPORT (4.1). -/
structure GateResult where
  amplitude : Byte
  time : Word16
  deriving DecidableEq, Repr

structure SetParamArgs where
  id : Byte
  value : Word32
  deriving DecidableEq, Repr

/-- One gate of a WRITE_PROBE, as carried (11.3). -/
structure GateArgs where
  role : Byte
  windowStart : Word16
  windowWidth : Word16
  threshold : Byte
  dropBand : Byte
  deriving DecidableEq, Repr

/-- WRITE_PROBE as carried (11.3). `enabled` is the whole byte; its bit 0 counts. -/
structure WriteProbeArgs where
  probe : Byte
  enabled : Byte
  group : Byte
  offset : Word16
  shift : Word16
  delay : Word16
  lead : Word16
  depthFactor : Word16
  gates : Vector GateArgs 4
  deriving DecidableEq, Repr

structure WriteStepArgs where
  step : Byte
  probeSet : Word32
  listen : Word16
  deriving DecidableEq, Repr

/-- One term of a WRITE_PATTERN, as carried (11.3). -/
structure TermArgs where
  group : Byte
  kind : Byte
  bandMask : Byte
  minCount : Byte
  minAmplitude : Byte
  deriving DecidableEq, Repr

/-- WRITE_PATTERN as carried; the term count is the length of `terms` (R127). -/
structure WritePatternArgs where
  pattern : Byte
  flags : Byte
  railMask : Byte
  spread : Byte
  minRun : Byte
  cls : Byte
  spray : Byte
  terms : List TermArgs
  deriving DecidableEq, Repr

structure WriteSprayArgs where
  number : Byte
  dashCount : Byte
  dashLength : Word16
  gapLength : Word16
  colour : Byte
  purge : Byte
  deriving DecidableEq, Repr

structure AddZoneArgs where
  railMask : Byte
  groupMask : Byte
  start : Word32
  stop : Word32
  deriving DecidableEq, Repr

structure MarkerResumeArgs where
  rail : Byte
  action : Byte
  deriving DecidableEq, Repr

structure MarkerTestArgs where
  rail : Byte
  spray : Byte
  deriving DecidableEq, Repr

structure SubscribeArgs where
  kindMask : Byte
  classMask : Word16
  deriving DecidableEq, Repr

structure PartitionArgs where
  intake : Byte
  lane1 : Byte
  lane2 : Byte
  lane3 : Byte
  deriving DecidableEq, Repr

structure ReadCellArgs where
  rail : Byte
  cell : Word32
  deriving DecidableEq, Repr

/-- One constructor for each row of spec/opcode_table.json, in the table's order. -/
inductive Instr where
  /-- RESET_N is low, or power-on (R31). -/
  | resetNAsserted
  /-- RESET_N is released; the filters take their first samples (R19). -/
  | resetRelease (levels : InputLevels)
  /-- A decoded tick of an encoder (R2, R5). -/
  | encoderTick (enc : Encoder) (sign : Direction)
  /-- Both channels of an encoder accept a change on one sample edge (R3). -/
  | illegalTransition (enc : Encoder)
  /-- The IDLE engine of a rail takes its due head (R150). -/
  | headTaken (rail : Rail)
  /-- The standstill timer reaches STILL_MS (R9). -/
  | standstillSet
  /-- The end of a 10 ms speed interval (R8). -/
  | speedIntervalEnd
  /-- The end of a 100 ms slip window (R10). -/
  | slipWindowEnd
  /-- The lift input is sampled at a level (R14). -/
  | liftSample (level : Bool)
  /-- The keep-alive timer reaches KEEPALIVE_MS (R40). -/
  | keepaliveTrigger
  /-- The step timer expires (R43). -/
  | stepTimerExpiry
  /-- The record in a slot reaches its deadline (R49). -/
  | firingRecordTimeout (slot : Fin 64)
  /-- The lane sends the SETUP message at the head of its queue (R57). -/
  | setupMessageSent (lane : Rail)
  /-- The lane sends the FIRE message at the head of its queue (R55). -/
  | fireMessageSent (lane : Rail)
  /-- A READY is received (R58). -/
  | ready (lane : Rail) (setupNumber : Byte)
  /-- A REPORT is received (R62). -/
  | report (lane : Rail) (tag : Byte) (probe : Byte) (gates : Vector GateResult 4)
  /-- A corrupt lane message is received (R55). -/
  | corruptMessage (lane : Rail)
  /-- The lane timer reaches SETUP_WAIT_MS in SETUP (R59). -/
  | setupTimeout (lane : Rail)
  /-- The lane timer reaches SETUP_WAIT_MS in FAULT (R59). -/
  | retry (lane : Rail)
  /-- The drain (R30, R105). -/
  | drain
  /-- PULLIN_MS elapses (R155). -/
  | pullinEnd (rail : Rail)
  /-- A hold drive on-time or period elapses (R156). -/
  | holdPulsePeriod (rail : Rail)
  /-- The dash length is counted or MAX_DASH_MS elapses (R155). -/
  | holdEnd (rail : Rail)
  /-- The gap length is counted or MAX_DASH_MS elapses (R155). -/
  | gapEnd (rail : Rail)
  /-- PURGE_MS elapses (R155). -/
  | purgeEnd (rail : Rail)
  /-- RECOVER_MS elapses (R155). -/
  | recoverEnd (rail : Rail)
  /-- A link frame begins (R165). -/
  | linkFrame
  /-- A byte of a node's report lane field is sent (R171). -/
  | reportLaneByte (lane : Node)
  /-- A command frame is closed; its content bits, first bit first, false is dominant (R168). -/
  | commandFrameReceived (content : List Bool)
  /-- Six recessive bits inside a frame (R167). -/
  | abort
  /-- A frame's content reaches 57 bytes (R167). -/
  | oversize
  /-- A command field ends; its 64 bits, 0 is dominant (R170). -/
  | commandFieldEnd (field : BitVec 64)
  /-- The dominant count reaches 8 (R170). -/
  | linkBreak
  | unknownCommand (h : Sender) (code : Byte)
  | startRun (h : Sender) (p : Params Unit)
  | pauseRun (h : Sender) (p : Params Unit)
  | resumeRun (h : Sender) (p : Params Unit)
  | endRun (h : Sender) (p : Params Unit)
  | warmReset (h : Sender) (p : Params Unit)
  | setParam (h : Sender) (p : Params SetParamArgs)
  | getParam (h : Sender) (p : Params Byte)
  | writeProbe (h : Sender) (p : Params WriteProbeArgs)
  | readProbe (h : Sender) (p : Params Byte)
  | writeStep (h : Sender) (p : Params WriteStepArgs)
  | readStep (h : Sender) (p : Params Byte)
  | writePattern (h : Sender) (p : Params WritePatternArgs)
  | readPattern (h : Sender) (p : Params Byte)
  | writeSpray (h : Sender) (p : Params WriteSprayArgs)
  | readSpray (h : Sender) (p : Params Byte)
  | addZone (h : Sender) (p : Params AddZoneArgs)
  | cancelZone (h : Sender) (p : Params Byte)
  | listZones (h : Sender) (p : Params Unit)
  /-- MARKER_RESUME with any action byte but SKIP's; an action that is neither is refused (R154). -/
  | markerResumeRetry (h : Sender) (p : Params MarkerResumeArgs)
  /-- MARKER_RESUME with the action SKIP (R154). -/
  | markerResumeSkip (h : Sender) (p : Params MarkerResumeArgs)
  | markerTest (h : Sender) (p : Params MarkerTestArgs)
  | markerCancel (h : Sender) (p : Params Byte)
  | rebase (h : Sender) (p : Params Word32)
  | subscribe (h : Sender) (p : Params SubscribeArgs)
  | flushLane (h : Sender) (p : Params Unit)
  | partition (h : Sender) (p : Params PartitionArgs)
  | readCell (h : Sender) (p : Params ReadCellArgs)
  | readStatus (h : Sender) (p : Params Byte)
  /-- The receiver sees a delimiter in HUNTING (R167). -/
  | delimiter
  deriving DecidableEq, Repr

end Sys2Proof
end

