-- ==== Sys2Proof/Decode.lean ====
section
/-! DEFINITION. The decoder over the rows of spec/opcode_table.json that give bits. No row of this
block's table gives any (every "fields" list is empty and no row has "fixed"), so no word spells a command
by the table and the answer is none. Command frames, which do have a layout (11.6.3), are read by
`Machine.commandOfFrame` in Sys2Proof/Machine/Wire.lean, and lane messages by `Machine.laneCommand`. -/
namespace Sys2Proof

/-- The command a word spells by the table's bits: none, since the table gives no bits. -/
def decodeTableWord (_nbits _w : Nat) : Option Instr := none

end Sys2Proof
end

