-- ==== Sys2Proof/Config.lean ====
section
/-! DEFINITION. The values the manual leaves open. Each is an opaque constant: nothing can be proved of
its value, so a claim that holds, holds whatever the value is. The state's counter `freeCtr` is
the argument, and every use advances it, so two uses are unrelated. -/
namespace Sys2Proof.Config

/-- A free natural number for the n-th open choice: the LIMIT end shown while LIMIT is clear, the side
of an entry that recorded none, the arming of a test mark (notes/assumptions/5.md). -/
opaque freeNat : Nat → Nat

/-- A free integer for the n-th open choice: the tail's lowest and highest index while the tail is
empty, the fire point of the head while the queue is empty (notes/assumptions/5.md). -/
opaque freeInt : Nat → Int

end Sys2Proof.Config
end

