-- ==== Sys2Proof/Machine/State.lean ====
section
/-! DEFINITION. The whole state of the DN-62 as plain data, block by block, and its value after cold
reset. Each field names the rule that gives it. Exact quantities are `Int` or `Nat`; counters that
wrap and masks are bit vectors; a condition that is set or clear is a `Bool`. -/
namespace Sys2Proof.Machine

/-! ## Containers -/

/-- One value for each rail. -/
structure PerRail (α : Type) where
  a : α
  b : α
  deriving DecidableEq, Repr

def PerRail.get {α : Type} (p : PerRail α) (r : Rail) : α :=
  match r with
  | .a => p.a
  | .b => p.b

def PerRail.set {α : Type} (p : PerRail α) (r : Rail) (x : α) : PerRail α :=
  match r with
  | .a => { p with a := x }
  | .b => { p with b := x }

/-- One value for each node of the link. -/
structure PerNode (α : Type) where
  n1 : α
  n2 : α
  n3 : α
  deriving DecidableEq, Repr

def PerNode.get {α : Type} (p : PerNode α) (n : Node) : α :=
  match n with
  | .n1 => p.n1
  | .n2 => p.n2
  | .n3 => p.n3

def PerNode.set {α : Type} (p : PerNode α) (n : Node) (x : α) : PerNode α :=
  match n with
  | .n1 => { p with n1 := x }
  | .n2 => { p with n2 := x }
  | .n3 => { p with n3 := x }

/-! ## Odometry (chapter 1) -/

/-- The filter of one encoder input (R1). -/
structure InputFilter where
  accepted : Bool
  run : Nat
  deriving DecidableEq, Repr

/-- The two filters of one encoder. Its quadrature state is the pair of accepted levels (R2). -/
structure Quadrature where
  a : InputFilter
  b : InputFilter
  deriving DecidableEq, Repr

inductive LimitEnd where
  | upper
  | lower
  deriving DecidableEq, Repr

/-- The Odometry Unit (chapter 1, table of state; R19). -/
structure Odometry where
  enc1 : Quadrature
  enc2 : Quadrature
  /-- Carriage coordinate (R5, R6). -/
  cp : Int
  /-- High-water coordinate (R7). -/
  hw : Int
  direction : Direction
  /-- The encoder whose ticks move CP (R5, R12). -/
  source : Encoder
  /-- Ticks per second, 0–65,535 (R8). -/
  speed : Nat
  intervalCount : Nat
  /-- 1 ms periods since the last source tick, 0–2000 (R9). -/
  standstillTimer : Nat
  deltaP : Int
  deltaS : Int
  windowErrP : Nat
  windowErrS : Nat
  mismatch : Nat
  agreement : Nat
  /-- Deltas of the last window judged since the streaks were last zeroed, else 0 (R11). -/
  judgedP : Int
  judgedS : Int
  errorTally : Nat
  /-- The last lift sample; the accepted level is LIFTED itself (R14). -/
  liftSample : Bool
  /-- 1 ms periods since the last lift sample (R14). -/
  liftTimer : Nat
  standstill : Bool
  slip : Bool
  retrace : Bool
  /-- LIMIT and its end; none while clear (R6). -/
  limit : Option LimitEnd
  lifted : Bool
  deriving DecidableEq, Repr

/-! ## Runs (chapter 2) -/

inductive RunState where
  | stopped
  | running
  | paused
  | draining
  deriving DecidableEq, Repr

/-- REACH_MIN and REACH_MAX of one rail or of both (R25). -/
structure Reach where
  least : Int
  greatest : Int
  deriving DecidableEq, Repr

/-- The Run Controller (chapter 2, table of state; R31). -/
structure RunControl where
  state : RunState
  runNumber : Word16
  reach : PerRail Reach
  reachAll : Reach
  /-- End-of-run close index of each rail (R29). -/
  endK : PerRail Int
  suspension : Bool
  /-- Configuration generation counter (R35). -/
  generation : Word16
  deriving DecidableEq, Repr

/-! ## Firing (chapter 3) -/

structure FireStep where
  probeSet : Word32
  listen : Nat
  deriving DecidableEq, Repr

inductive CycleState where
  | idle
  | stepping (k : Nat)
  deriving DecidableEq, Repr

inductive CycleKind where
  | distance
  | keepalive
  deriving DecidableEq, Repr

/-- One firing record (R48); `outstanding = false` is FREE. -/
structure FiringRecord where
  outstanding : Bool
  tag : Byte
  lane : Rail
  step : Nat
  kind : CycleKind
  fp : Int
  expected : Word16
  received : Word16
  /-- In periods of the 10 µs timer base. -/
  issued : Nat
  deadline : Nat
  deriving DecidableEq, Repr

/-- The Firing Sequencer (chapter 3, table of state; R53). -/
structure Sequencer where
  steps : Vector FireStep 16
  lastTrigger : Int
  /-- 1 ms periods, 0–1000 (R40). -/
  keepAliveTimer : Nat
  cycle : CycleState
  kind : CycleKind
  overrun : Bool
  stopping : Bool
  /-- 10 µs periods left of the current step (R42). -/
  stepTimer : Nat
  /-- A pending DISTANCE trigger (R44). -/
  pendingTrigger : Bool
  overspeed : Bool
  tagCounter : Byte
  ring : Vector FiringRecord 64
  deriving DecidableEq, Repr

/-! ## Front-end lanes (chapter 4) -/

inductive LaneState where
  | down
  | setup
  | ok
  | fault
  deriving DecidableEq, Repr

inductive CouplingState where
  | unknown
  | coupled
  | lost
  deriving DecidableEq, Repr

structure Coupling where
  state : CouplingState
  absent : Nat
  present : Nat
  deriving DecidableEq, Repr

structure GateWindow where
  start : Nat
  width : Nat
  deriving DecidableEq, Repr

/-- A message of the part to a front end (4.1). -/
inductive LaneMessage where
  | setup (number : Byte) (probe : Nat) (final : Bool) (windows : Vector GateWindow 4)
  | fire (tag : Byte) (mask : Word16)
  deriving DecidableEq, Repr

/-- One lane controller (chapter 4, table of state; R72). -/
structure Lane where
  state : LaneState
  setupNumber : Byte
  setupSent : Nat
  setupFinal : Bool
  /-- 1 ms periods, 0–1000 (R59). -/
  timer : Nat
  incomplete : Nat
  coupling : Vector Coupling 16
  corrupt : Nat
  stale : Nat
  unexpected : Nat
  duplicate : Nat
  /-- Messages queued and not yet sent (R55). -/
  txQueue : List LaneMessage
  /-- The bytes of the message sent last, check included: the output FEA_TX or FEB_TX. -/
  sent : List Byte
  deriving DecidableEq, Repr

/-! ## Placement (chapter 5) -/

inductive GateRole where
  | off
  | flaw
  | drop
  | coupling
  deriving DecidableEq, Repr

/-- A gate record of the Probe Table (R74). -/
structure Gate where
  role : GateRole
  windowStart : Nat
  windowWidth : Nat
  threshold : Nat
  dropBand : Fin 8
  deriving DecidableEq, Repr

/-- A probe entry (R73). -/
structure Probe where
  enabled : Bool
  group : Fin 8
  offset : Int
  shift : Int
  delay : Nat
  lead : Int
  depthFactor : Nat
  gates : Vector Gate 4
  deriving DecidableEq, Repr

/-! ## Cell Windows (chapter 6) -/

/-- One group record of a cell (R90). -/
structure GroupRecord where
  hits : Nat
  bands : Byte
  peak : Nat
  drops : Nat
  covered : Bool
  deriving DecidableEq, Repr

def GroupRecord.empty : GroupRecord := { hits := 0, bands := 0, peak := 0, drops := 0, covered := false }

/-- The eight group records of a cell (R90). -/
abbrev CellGroups := Vector GroupRecord 8

def CellGroups.empty : CellGroups := Vector.replicate 8 GroupRecord.empty

/-- An open cell that has content (R90). -/
structure CellRecord where
  index : Int
  groups : CellGroups
  deriving DecidableEq, Repr

/-- A closed record of the evaluation tail (R90, R93). -/
structure ClosedCell where
  index : Int
  groups : CellGroups
  muted : Byte
  drain : Bool
  deriving DecidableEq, Repr

/-- One Cell Window (chapter 6, table of state; R110). `cells` lists the open cells that have content, in
strictly ascending index; every other open cell's record is empty (notes/assumptions/3.md). -/
structure Window where
  k : Int
  opening : Int
  cells : List CellRecord
  tail : List ClosedCell
  late : Nat
  early : Nat
  misplaced : Nat
  deriving DecidableEq, Repr

/-! ## Zones (chapter 7) -/

inductive ZoneKind where
  | mute
  | suspend
  deriving DecidableEq, Repr

/-- A zone (R112). `stop` is the end tick, none while open; `node` is none for the part. -/
structure Zone where
  id : Byte
  kind : ZoneKind
  rails : BitVec 2
  groups : Byte
  start : Int
  stop : Option Int
  node : Option Node
  deriving DecidableEq, Repr

/-- The Zone List (chapter 7, table of state; R124). -/
structure ZoneList where
  zones : List Zone
  idCounter : Byte
  deriving DecidableEq, Repr

/-! ## Evaluation (chapter 8) -/

inductive HitKind where
  | flaw
  | drop
  deriving DecidableEq, Repr

/-- A term of a pattern (R126). -/
structure Term where
  group : Fin 8
  kind : HitKind
  bands : Byte
  minCount : Nat
  minAmplitude : Nat
  deriving DecidableEq, Repr

/-- A pattern entry (R125). `spray` is none for 0; spray pattern n is held as n − 1. -/
structure Pattern where
  enabled : Bool
  rails : BitVec 2
  spread : Nat
  minRun : Nat
  cls : Fin 16
  spray : Option (Fin 7)
  urgent : Bool
  terms : List Term
  deriving DecidableEq, Repr

/-- A pattern run on one rail (R131); closed when `length` is 0. -/
structure PatternRun where
  length : Nat
  start : Int
  groupsSeen : Byte
  peak : Nat
  peakBand : Nat
  hitTotal : Nat
  deriving DecidableEq, Repr

/-- A gap run (R139); closed when `length` is 0. -/
structure GapRun where
  length : Nat
  start : Int
  missing : Byte
  deriving DecidableEq, Repr

/-- The alert record (R137). -/
structure Alert where
  start : Int
  rail : Rail
  cls : Fin 16
  count : Byte
  deriving DecidableEq, Repr

/-- The Pattern Evaluator (chapter 8, table of state; R144). -/
structure Evaluator where
  patterns : Vector Pattern 32
  runs : PerRail (Vector PatternRun 32)
  gaps : PerRail GapRun
  alert : Alert
  deriving DecidableEq, Repr

/-! ## Marking (chapter 9) -/

/-- A spray pattern entry (R145). -/
structure Spray where
  dashCount : Nat
  dashLength : Nat
  gapLength : Nat
  /-- false is colour 0, true colour 1. -/
  colour : Bool
  purge : Bool
  deriving DecidableEq, Repr

inductive Arming where
  | normal
  | either
  deriving DecidableEq, Repr

inductive Side where
  | below
  | above
  deriving DecidableEq, Repr

inductive Origin where
  | finding
  | test
  deriving DecidableEq, Repr

/-- A marker queue entry (R146). `due` is the latch of an EITHER entry: once due, it stays due (R149). -/
structure MarkerEntry where
  target : Int
  spray : Fin 7
  cls : Fin 16
  origin : Origin
  arming : Arming
  side : Option Side
  due : Bool
  deriving DecidableEq, Repr

/-- The phases of a mark being painted (R155). -/
inductive PaintPhase where
  | pullin
  | hold
  | gap
  | purge
  | recover
  deriving DecidableEq, Repr

/-- The current mark (chapter 9, table of state): the entry, the copy of its spray pattern, the dash in
progress, the counts of the phase in progress and the parameters the phase read when it began (R155). -/
structure Mark where
  target : Int
  spray : Fin 7
  cls : Fin 16
  origin : Origin
  arming : Arming
  shape : Spray
  dash : Nat
  /-- Changes of CP since the dash's PULLIN, or the GAP, began. -/
  distance : Nat
  /-- 10 µs periods since the phase began. -/
  elapsed : Nat
  /-- 10 µs periods since the dash's PULLIN began. -/
  dashElapsed : Nat
  /-- The time the phase in progress lasts (PULLIN, PURGE, RECOVER) or may last (GAP), in 10 µs periods. -/
  phaseTime : Nat
  /-- MAX_DASH_MS as the dash's PULLIN read it, in 10 µs periods. -/
  dashTime : Nat
  /-- Hold drive period and on-time as HOLD read them, in 10 µs periods (R156). -/
  holdPeriod : Nat
  holdOn : Nat
  /-- 10 µs periods since the hold drive period in progress began. -/
  holdCount : Nat
  deriving DecidableEq, Repr

/-- An engine's phase with its current mark (R155). -/
inductive EngineState where
  | idle
  | painting (phase : PaintPhase) (mark : Mark)
  | halted
  deriving DecidableEq, Repr

/-- The three valve outputs of a rail. -/
structure Valves where
  colour0 : Bool
  colour1 : Bool
  purge : Bool
  deriving DecidableEq, Repr

def Valves.off : Valves := { colour0 := false, colour1 := false, purge := false }

/-- One rail's marker queue, engine and valve outputs (R146, R155, R157). -/
structure Engine where
  queue : List MarkerEntry
  state : EngineState
  valves : Valves
  deriving DecidableEq, Repr

/-- The Marker Controller (chapter 9, table of state; R164). -/
structure Marker where
  sprays : Vector Spray 7
  engines : PerRail Engine
  lead : Nat
  deriving DecidableEq, Repr

/-! ## Records (11.6.4) -/

/-- Result codes of a REPLY (11.2). -/
inductive Result where
  | ok
  | clamped
  | busy
  | range
  | full
  | notFound
  | past
  | config
  | state
  | length
  | unknown
  deriving DecidableEq, Repr

inductive RunCause where
  | command (h : Sender)
  | drainEnd
  deriving DecidableEq, Repr

inductive ResetCause where
  | command (h : Sender)
  | linkBreak
  deriving DecidableEq, Repr

inductive LaneCause where
  | runStart
  | noProbes
  | ready
  | setupTimeout
  | incompleteOrders
  | retry
  | drainEnd
  deriving DecidableEq, Repr

inductive SourceCause where
  | failover
  | modeWrite
  | startRun
  deriving DecidableEq, Repr

inductive SuspendBeginCause where
  | lift
  | pause
  | runStart
  deriving DecidableEq, Repr

inductive SuspendEndCause where
  | lift
  | resume
  | endRun
  deriving DecidableEq, Repr

/-- The EVENT kinds with their fields besides CP (11.6.4). -/
inductive Event where
  | runState (new previous : RunState) (runNumber : Word16) (cause : RunCause)
  | warmReset (atReset : RunState) (runNumber : Word16) (cause : ResetCause)
  | laneState (lane : Rail) (new previous : LaneState) (setupNumber : Byte) (cause : LaneCause)
  | coupling (probe : Nat) (new previous : CouplingState) (kind : CycleKind)
  | slip (new : Bool) (deltaP deltaS : Int)
  | source (new : Encoder) (cause : SourceCause)
  | standstill (new : Bool)
  | retrace (new : Bool) (hw : Int)
  | limit (new : Bool) (limitEnd : LimitEnd)
  | overspeed (new : Bool) (speed : Nat) (step : Nat)
  | lift (new : Bool)
  | suspendBegin (zone : Byte) (start : Int) (cause : SuspendBeginCause) (extended : Bool)
  | suspendEnd (zone : Byte) (start stop : Int) (cause : SuspendEndCause)
  | encoderError (primary secondary tally : Nat)
  deriving DecidableEq, Repr

inductive Disposition where
  | none
  | queued
  | merged
  | queueFull
  deriving DecidableEq, Repr

/-- A FINDING (R136). -/
structure Finding where
  runNumber : Word16
  rail : Rail
  pattern : Fin 32
  cls : Fin 16
  urgent : Bool
  capped : Bool
  startCell : Int
  length : Nat
  startTick : Int
  groupsSeen : Byte
  peak : Nat
  peakBand : Nat
  hitTotal : Nat
  disposition : Disposition
  spray : Option (Fin 7)
  cp : Int
  generation : Word16
  deriving DecidableEq, Repr

/-- A GAP (R141). -/
structure GapRecord where
  runNumber : Word16
  rail : Rail
  capped : Bool
  startCell : Int
  length : Nat
  missing : Byte
  cp : Int
  deriving DecidableEq, Repr

/-- A HIT (R96). -/
structure HitRecord where
  runNumber : Word16
  rail : Rail
  kind : HitKind
  gate : Fin 4
  probe : Nat
  group : Fin 8
  band : Nat
  x : Int
  cell : Int
  depth : Nat
  amplitude : Nat
  deriving DecidableEq, Repr

inductive MarkOutcome where
  | fired
  | droppedLate
  | halted
  | skipped
  | testFired
  | cancelled
  deriving DecidableEq, Repr

/-- A MARK (R161). -/
structure MarkRecord where
  runNumber : Word16
  rail : Rail
  outcome : MarkOutcome
  origin : Origin
  target : Int
  spray : Fin 7
  cls : Fin 16
  arming : Arming
  g : Int
  lateness : Int
  cp : Int
  deriving DecidableEq, Repr

/-- A record of a report lane (11.6.4); FILL is no member of a lane. -/
inductive Record where
  | reply (tag : Byte) (code : Byte) (result : Result) (data : List Byte)
  | finding (f : Finding)
  | gap (g : GapRecord)
  | hit (h : HitRecord)
  | mark (m : MarkRecord)
  | event (cp : Int) (e : Event)
  | loss (shed lost : Nat) (first last : Int)
  deriving DecidableEq, Repr

/-! ## The link (chapter 10) -/

inductive ReceiverMode where
  | hunting
  | receiving
  deriving DecidableEq, Repr

/-- The command receiver (R167). `content` and the two marks are used bit by bit on the clocked path. -/
structure Receiver where
  mode : ReceiverMode
  /-- Content bits received so far, first bit first. -/
  content : List Bool
  /-- Consecutive recessive bits just received. -/
  recessiveRun : Nat
  /-- In HUNTING: a dominant bit stands before the run. In RECEIVING: it is content and no stuff bit. -/
  dominantSeen : Bool
  deriving DecidableEq, Repr

/-- One report lane with its transmit stage, subscription and tallies (R171–R174). -/
structure ReportLane where
  pages : Nat
  records : List Record
  /-- The record being sent and how many of its bytes have gone. -/
  stage : Option (Record × Nat)
  kindMask : BitVec 5
  classMask : Word16
  shed : Nat
  lost : Nat
  firstLoss : Int
  lastLoss : Int
  /-- The byte sent last in the lane's field: an output. -/
  lastByte : Byte
  deriving DecidableEq, Repr

/-- The Link Controller (chapter 10, table of state; R177). GATE is not stored: it is `LinkState.gateOpen`,
a function of the intake and break recovery (R169). -/
structure LinkState where
  /-- The number the next link frame takes (R165). -/
  nextFrame : Fin 16
  receiver : Receiver
  intakePages : Nat
  /-- Command frames in arrival order, each as its content bytes (R169). -/
  intake : List (List Byte)
  lanes : PerNode ReportLane
  oversize : Nat
  badNode : Nat
  badCheck : Nat
  badLength : Nat
  noRoom : Nat
  aborts : Nat
  dominantCount : Nat
  recovery : Bool
  /-- The bytes of the sync field sent last: an output (R165). -/
  sync : List Byte
  /-- The 12 bytes of the broadcast sent last: an output (R166). -/
  broadcast : List Byte
  /-- The bits of the command field in progress, read on the clocked path (R170). -/
  field : BitVec 64
  deriving DecidableEq, Repr

/-! ## Parameters (11.4) -/

inductive SecondaryMode where
  | off
  | monitor
  | failover
  deriving DecidableEq, Repr

inductive LatePolicy where
  | defer
  | drop
  | halt
  deriving DecidableEq, Repr

/-- The 37 parameters (R16, R38, R70, R76, R107, R138, R162; table of 11.4). -/
structure Parameters where
  cellTicks : Nat
  fireSpacing : Nat
  stepCount : Nat
  keepaliveMs : Nat
  stillMs : Nat
  encFilter : Nat
  secondaryMode : SecondaryMode
  slipLimit : Nat
  liftFilter : Nat
  coupleLose : Nat
  coupleGain : Nat
  reportWaitUs : Nat
  setupWaitMs : Nat
  closeMargin : Nat
  bands : Vector Nat 7
  required : PerRail Byte
  gapMin : Nat
  gunOffset : PerRail Int
  valveLatencyUs : Nat
  latePolicy : PerRail LatePolicy
  lateTol : Nat
  mergeTicks : Nat
  maxDashMs : Nat
  pullinMs : Nat
  holdPeriod : Nat
  holdDuty : Nat
  purgeMs : Nat
  recoverMs : Nat
  deriving DecidableEq, Repr

/-! ## Pins and clock -/

/-- The input pins as they stand (0.9): encoder channels, lift switch, command lane (true is recessive),
and the lane messages a front end has sent and the lane controller has not yet judged. -/
structure Pins where
  enc1A : Bool
  enc1B : Bool
  enc2A : Bool
  enc2B : Bool
  lift : Bool
  command : Bool
  received : PerRail (List (List Byte))
  deriving DecidableEq, Repr

/-- The machine. -/
structure State where
  /-- RESET_N is asserted (R31). -/
  held : Bool
  odo : Odometry
  run : RunControl
  seq : Sequencer
  lanes : PerRail Lane
  /-- The Probe Table (R73). -/
  probes : Vector Probe 32
  windows : PerRail Window
  zones : ZoneList
  eval : Evaluator
  marker : Marker
  link : LinkState
  params : Parameters
  pins : Pins
  /-- Edges of the 8 MHz sample clock since the release of cold reset; the time bases of R4 and the 10 µs
  base of R155 are read off it (notes/assumptions/2.md). -/
  samples : Nat
  /-- How many free values have been drawn: the model's own field (notes/assumptions/5.md). -/
  freeCtr : Nat
  /-- Commands waiting, first in, first out: the model's own field. -/
  pending : List Instr
  deriving DecidableEq, Repr

/-! ## Reasons to stop -/

/-- Faults: none. No rule of the manual stops the part; every command has a next state. Safe. -/
inductive Fault where
  deriving DecidableEq, Repr

/-- Refusals. `notModelled` is raised by a dispatch arm of a row that has no meaning; no arm does. Safe. -/
inductive Refusal where
  | notModelled (mnemonic : String)
  deriving DecidableEq, Repr

/-! ## Cold reset -/

def InputFilter.first (level : Bool) : InputFilter := { accepted := level, run := 0 }

/-- R19. -/
def Odometry.cold (l : InputLevels) : Odometry where
  enc1 := { a := .first l.enc1A, b := .first l.enc1B }
  enc2 := { a := .first l.enc2A, b := .first l.enc2B }
  cp := 0
  hw := 0
  direction := .forward
  source := .primary
  speed := 0
  intervalCount := 0
  standstillTimer := 250
  deltaP := 0
  deltaS := 0
  windowErrP := 0
  windowErrS := 0
  mismatch := 0
  agreement := 0
  judgedP := 0
  judgedS := 0
  errorTally := 0
  liftSample := l.lift
  liftTimer := 0
  standstill := true
  slip := false
  retrace := false
  limit := none
  lifted := l.lift

def Reach.zero : Reach := { least := 0, greatest := 0 }

/-- R31. -/
def RunControl.cold : RunControl where
  state := .stopped
  runNumber := 0
  reach := { a := .zero, b := .zero }
  reachAll := .zero
  endK := { a := 0, b := 0 }
  suspension := false
  generation := 0

/-- R53 gives FREE; the other fields of a slot never allocated are a DESIGN CHOICE
(notes/assumptions/1.md). -/
def FiringRecord.free : FiringRecord where
  outstanding := false
  tag := 0
  lane := .a
  step := 0
  kind := .distance
  fp := 0
  expected := 0
  received := 0
  issued := 0
  deadline := 0

/-- R53. -/
def Sequencer.cold : Sequencer where
  steps := Vector.replicate 16 { probeSet := 0, listen := 100 }
  lastTrigger := 0
  keepAliveTimer := 0
  cycle := .idle
  kind := .distance
  overrun := false
  stopping := false
  stepTimer := 0
  pendingTrigger := false
  overspeed := false
  tagCounter := 0
  ring := Vector.replicate 64 .free

def Coupling.fresh : Coupling := { state := .unknown, absent := 0, present := 0 }

/-- R72. -/
def Lane.cold : Lane where
  state := .down
  setupNumber := 0
  setupSent := 0
  setupFinal := false
  timer := 0
  incomplete := 0
  coupling := Vector.replicate 16 .fresh
  corrupt := 0
  stale := 0
  unexpected := 0
  duplicate := 0
  txQueue := []
  sent := []

/-- R87. -/
def Gate.cold : Gate :=
  { role := .off, windowStart := 0, windowWidth := 1, threshold := 255, dropBand := 0 }

/-- R87. -/
def Probe.cold : Probe where
  enabled := false
  group := 0
  offset := 0
  shift := 0
  delay := 0
  lead := 0
  depthFactor := 0
  gates := Vector.replicate 4 .cold

/-- R110: K 0, every record empty, empty tail, tallies 0. -/
def Window.cold : Window :=
  { k := 0, opening := 0, cells := [], tail := [], late := 0, early := 0, misplaced := 0 }

/-- R124. -/
def ZoneList.cold : ZoneList := { zones := [], idCounter := 0 }

/-- R144. -/
def Pattern.cold : Pattern where
  enabled := false
  rails := 0
  spread := 0
  minRun := 1
  cls := 0
  spray := none
  urgent := false
  terms := [{ group := 0, kind := .flaw, bands := 0xFF, minCount := 1, minAmplitude := 255 }]

def PatternRun.closed : PatternRun :=
  { length := 0, start := 0, groupsSeen := 0, peak := 0, peakBand := 0, hitTotal := 0 }

def GapRun.cold : GapRun := { length := 0, start := 0, missing := 0 }

/-- R137. -/
def Alert.none : Alert := { start := 0, rail := .a, cls := 0, count := 0 }

/-- R144. -/
def Evaluator.cold : Evaluator where
  patterns := Vector.replicate 32 .cold
  runs := { a := Vector.replicate 32 .closed, b := Vector.replicate 32 .closed }
  gaps := { a := .cold, b := .cold }
  alert := .none

/-- R145. -/
def Spray.cold : Spray :=
  { dashCount := 1, dashLength := 40, gapLength := 40, colour := false, purge := true }

/-- R164. -/
def Engine.cold : Engine := { queue := [], state := .idle, valves := .off }

/-- R164. -/
def Marker.cold : Marker :=
  { sprays := Vector.replicate 7 .cold, engines := { a := .cold, b := .cold }, lead := 0 }

def Receiver.hunting : Receiver :=
  { mode := .hunting, content := [], recessiveRun := 0, dominantSeen := false }

/-- R177, R172: subscribed to FINDING, GAP, MARK and EVENT, all classes. -/
def ReportLane.cold : ReportLane where
  pages := 20
  records := []
  stage := none
  kindMask := 0b11011
  classMask := 0xFFFF
  shed := 0
  lost := 0
  firstLoss := 0
  lastLoss := 0
  lastByte := 0

/-- R177. -/
def LinkState.cold : LinkState where
  nextFrame := 0
  receiver := .hunting
  intakePages := 4
  intake := []
  lanes := { n1 := .cold, n2 := .cold, n3 := .cold }
  oversize := 0
  badNode := 0
  badCheck := 0
  badLength := 0
  noRoom := 0
  aborts := 0
  dominantCount := 0
  recovery := false
  sync := []
  broadcast := []
  field := 0

/-- The cold reset column of 11.4. -/
def Parameters.cold : Parameters where
  cellTicks := 4
  fireSpacing := 6
  stepCount := 0
  keepaliveMs := 100
  stillMs := 250
  encFilter := 2
  secondaryMode := .off
  slipLimit := 20
  liftFilter := 8
  coupleLose := 8
  coupleGain := 4
  reportWaitUs := 200
  setupWaitMs := 50
  closeMargin := 64
  bands := #v[80, 160, 240, 320, 480, 640, 800]
  required := { a := 0, b := 0 }
  gapMin := 4
  gunOffset := { a := -3000, b := -3000 }
  valveLatencyUs := 8000
  latePolicy := { a := .defer, b := .defer }
  lateTol := 50
  mergeTicks := 100
  maxDashMs := 500
  pullinMs := 6
  holdPeriod := 19
  holdDuty := 4
  purgeMs := 40
  recoverMs := 30

/-- The pins at the levels first sampled; the command lane recessive, no lane message waiting. -/
def Pins.cold (l : InputLevels) : Pins where
  enc1A := l.enc1A
  enc1B := l.enc1B
  enc2A := l.enc2A
  enc2B := l.enc2B
  lift := l.lift
  command := true
  received := { a := [], b := [] }

/-- The machine right after the release of cold reset with the given first samples (R19, R31). The free
value counter and the queue of commands are the model's own and are left to the caller. -/
def State.cold (l : InputLevels) (freeCtr : Nat) (pending : List Instr) : State where
  held := false
  odo := .cold l
  run := .cold
  seq := .cold
  lanes := { a := .cold, b := .cold }
  probes := Vector.replicate 32 .cold
  windows := { a := .cold, b := .cold }
  zones := .cold
  eval := .cold
  marker := .cold
  link := .cold
  params := .cold
  pins := .cold l
  samples := 0
  freeCtr := freeCtr
  pending := pending

/-- All inputs low at the first samples: a DESIGN CHOICE (notes/assumptions/1.md). -/
def lowLevels : InputLevels :=
  { enc1A := false, enc1B := false, enc2A := false, enc2B := false, lift := false }

/-- The machine right after reset. -/
def State.reset : State := .cold lowLevels 0 []

end Sys2Proof.Machine
end

