-- ==== Sys2Proof/Machine/Arith.lean ====
section
/-! DEFINITION. The plain arithmetic the rules share: saturation, clamping, rounding up, the range of a
rail coordinate, members of a mask, and the lists of groups, bands and rails. -/
namespace Sys2Proof.Machine

/-- A tally that saturates at 65,535 after adding `n` (0.8, R3, R62, R100, R168, R173). -/
def satAdd16 (t n : Nat) : Nat := min (t + n) 65535

/-- A value taken at the nearer end of a range (R16, R180). -/
def clampInt (lo hi x : Int) : Int := max lo (min x hi)

/-- The quotient rounded up (R42, R49). -/
def ceilDiv (n d : Nat) : Nat := (n + d - 1) / d

/-- A listen time or a wait in µs as whole periods of the 10 µs timer base (R42, R49). -/
def periods10 (us : Nat) : Nat := ceilDiv us 10

/-- A duration in ms as periods of the 10 µs timer base (R155). -/
def msPeriods (ms : Nat) : Nat := ms * 100

/-- Whether a value lies in the signed 32-bit range of a rail coordinate (R15, R80). -/
def inTickRange (x : Int) : Bool := decide (tickMin ≤ x) && decide (x ≤ tickMax)

/-- A value held at the ends of the signed 32-bit range (R136, R183). -/
def satTick (x : Int) : Int := clampInt tickMin tickMax x

/-- The cell of a rail position: the floor of X / CELL_TICKS (R81). Int division by a positive divisor is
the floor, also for a negative X (0.8). -/
def cellOf (x : Int) (cellTicks : Nat) : Int := x / (cellTicks : Int)

/-- The eight groups of a rail, also the eight bands (0.6). -/
def eight : List (Fin 8) := [0, 1, 2, 3, 4, 5, 6, 7]

/-- The four gates of a probe (0.6). -/
def fourGates : List (Fin 4) := [0, 1, 2, 3]

/-- A mask of groups or bands from a test of its members (R183: member n is bit n). -/
def maskOf (f : Fin 8 → Bool) : Byte :=
  eight.foldl (fun m g => if f g then m ||| BitVec.ofNat 8 (2 ^ g.val) else m) 0

/-- The one-member mask of a group or band. -/
def bit8 (g : Nat) : Byte := BitVec.ofNat 8 (2 ^ g)

/-- The one-member mask of a local probe. -/
def bit16 (p : Nat) : Word16 := BitVec.ofNat 16 (2 ^ p)

/-- The number of a rail, 0 for A and 1 for B (R183). -/
def Rail.num (r : Rail) : Nat :=
  match r with
  | .a => 0
  | .b => 1

/-- Whether a rail mask holds a rail (R183). -/
def holdsRail (m : BitVec 2) (r : Rail) : Bool := m.getLsbD (Rail.num r)

/-- The probe number of a local probe of a rail (0.6). -/
def probeNo (r : Rail) (p : Fin 16) : Fin 32 :=
  match r with
  | .a => ⟨p.val, by omega⟩
  | .b => ⟨p.val + 16, by omega⟩

/-- The sixteen local probes of a lane (0.6). -/
def localProbes : List (Fin 16) := [0, 1, 2, 3, 4, 5, 6, 7, 8, 9, 10, 11, 12, 13, 14, 15]

/-- The rail a carried rail byte names, A 0 and B 1, or none (R158, R108). -/
def railOf (b : Byte) : Option Rail :=
  if b = 0 then some .a else if b = 1 then some .b else none

end Sys2Proof.Machine
end

