-- ==== Sys2Proof/Machine/Index.lean ====
section
/-! DEFINITION. The command index of 11.3: the parameter length of each command code. -/
namespace Sys2Proof

/-- The parameter length in bytes that the command index gives for a code, 11.3; for WRITE_PATTERN the
part that comes before the terms. None for a code that is not in the index. -/
def indexLength (code : Byte) : Option Nat :=
  match code.toNat with
  | 0x01 | 0x02 | 0x03 | 0x04 | 0x05 | 0x22 | 0x39 => some 0
  | 0x10 | 0x40 => some 5
  | 0x11 | 0x13 | 0x15 | 0x17 | 0x19 | 0x21 | 0x2A | 0x41 => some 1
  | 0x12 => some 41
  | 0x14 => some 7
  | 0x16 | 0x18 => some 8
  | 0x20 => some 10
  | 0x28 | 0x29 => some 2
  | 0x30 | 0x3A => some 4
  | 0x38 => some 3
  | _ => none

end Sys2Proof
end

