-- ==== Sys2Proof/Machine/Wire.lean ====
section
/-! DEFINITION. The byte layouts of 11.6 with the encodings of R183: records, lane messages, the CRC-16 of
R55, and the reading of a command frame's content (11.6.3, 11.3) and of a received lane message. -/
namespace Sys2Proof.Machine

/-! ## Fields (R183) -/

def u8 (n : Nat) : List Byte := [BitVec.ofNat 8 n]

def u16 (n : Nat) : List Byte := [BitVec.ofNat 8 (n / 256), BitVec.ofNat 8 n]

def u32 (n : Nat) : List Byte := u16 (n / 65536) ++ u16 n

/-- A signed two-byte field. -/
def i16 (x : Int) : List Byte := u16 (BitVec.ofInt 16 x).toNat

/-- A signed four-byte field; a value outside the range is sent saturated. -/
def i32 (x : Int) : List Byte := u32 (BitVec.ofInt 32 (satTick x)).toNat

/-- A flag, mark or condition: one byte of 0 or 1. -/
def flag (b : Bool) : List Byte := u8 b.toNat

def word16 (a b : Byte) : Word16 := a ++ b

def word32 (a b c d : Byte) : Word32 := a ++ b ++ c ++ d

/-! ## Enumeration codes (R183, 11.6.4) -/

def RunState.code : RunState → Nat
  | .stopped => 0
  | .running => 1
  | .paused => 2
  | .draining => 3

def LaneState.code : LaneState → Nat
  | .down => 0
  | .setup => 1
  | .ok => 2
  | .fault => 3

def CouplingState.code : CouplingState → Nat
  | .unknown => 0
  | .coupled => 1
  | .lost => 2

def EngineState.code : EngineState → Nat
  | .idle => 0
  | .painting .pullin _ => 1
  | .painting .hold _ => 2
  | .painting .gap _ => 3
  | .painting .purge _ => 4
  | .painting .recover _ => 5
  | .halted => 6

def GateRole.code : GateRole → Nat
  | .off => 0
  | .flaw => 1
  | .drop => 2
  | .coupling => 3

/-- The role a carried byte names (R75 refuses every other byte). -/
def GateRole.ofByte (b : Byte) : Option GateRole :=
  match b.toNat with
  | 0 => some .off
  | 1 => some .flaw
  | 2 => some .drop
  | 3 => some .coupling
  | _ => none

def HitKind.code : HitKind → Nat
  | .flaw => 0
  | .drop => 1

def HitKind.ofByte (b : Byte) : Option HitKind :=
  match b.toNat with
  | 0 => some .flaw
  | 1 => some .drop
  | _ => none

def Direction.code : Direction → Nat
  | .forward => 0
  | .backward => 1

def Encoder.code : Encoder → Nat
  | .primary => 0
  | .secondary => 1

def CycleKind.code : CycleKind → Nat
  | .distance => 0
  | .keepalive => 1

def Side.code : Side → Nat
  | .below => 0
  | .above => 1

def Arming.code : Arming → Nat
  | .normal => 0
  | .either => 1

def Origin.code : Origin → Nat
  | .finding => 0
  | .test => 1

def LimitEnd.code : LimitEnd → Nat
  | .upper => 0
  | .lower => 1

def Node.num : Node → Nat
  | .n1 => 1
  | .n2 => 2
  | .n3 => 3

def Result.code : Result → Nat
  | .ok => 0
  | .clamped => 1
  | .busy => 2
  | .range => 3
  | .full => 4
  | .notFound => 5
  | .past => 6
  | .config => 7
  | .state => 8
  | .length => 9
  | .unknown => 10

def RunCause.bytes : RunCause → List Byte
  | .command h => u8 0 ++ u8 (Node.num h.node) ++ [h.tag]
  | .drainEnd => u8 1 ++ u8 0 ++ u8 0

def ResetCause.bytes : ResetCause → List Byte
  | .command h => u8 0 ++ u8 (Node.num h.node) ++ [h.tag]
  | .linkBreak => u8 1 ++ u8 0 ++ u8 0

def LaneCause.code : LaneCause → Nat
  | .runStart => 0
  | .noProbes => 1
  | .ready => 2
  | .setupTimeout => 3
  | .incompleteOrders => 4
  | .retry => 5
  | .drainEnd => 6

def SourceCause.code : SourceCause → Nat
  | .failover => 0
  | .modeWrite => 1
  | .startRun => 2

def SuspendBeginCause.code : SuspendBeginCause → Nat
  | .lift => 0
  | .pause => 1
  | .runStart => 2

def SuspendEndCause.code : SuspendEndCause → Nat
  | .lift => 0
  | .resume => 1
  | .endRun => 2

def Disposition.code : Disposition → Nat
  | .none => 0
  | .queued => 1
  | .merged => 2
  | .queueFull => 3

def MarkOutcome.code : MarkOutcome → Nat
  | .fired => 0
  | .droppedLate => 1
  | .halted => 2
  | .skipped => 3
  | .testFired => 4
  | .cancelled => 5

/-- The number of a spray pattern: 1–7, 0 for none. -/
def sprayNo : Option (Fin 7) → Nat
  | none => 0
  | some n => n.val + 1

/-! ## Records (11.6.4) -/

def Event.code : Event → Nat
  | .runState .. => 1
  | .warmReset .. => 2
  | .laneState .. => 3
  | .coupling .. => 4
  | .slip .. => 5
  | .source .. => 6
  | .standstill .. => 7
  | .retrace .. => 8
  | .limit .. => 9
  | .overspeed .. => 10
  | .lift .. => 11
  | .suspendBegin .. => 12
  | .suspendEnd .. => 13
  | .encoderError .. => 14

/-- The fields after kind and CP. -/
def Event.fields : Event → List Byte
  | .runState new prev num cause => u8 new.code ++ u8 prev.code ++ u16 num.toNat ++ cause.bytes
  | .warmReset at' num cause => u8 at'.code ++ u16 num.toNat ++ cause.bytes
  | .laneState lane new prev num cause =>
    u8 (Rail.num lane) ++ u8 new.code ++ u8 prev.code ++ [num] ++ u8 cause.code
  | .coupling probe new prev kind => u8 probe ++ u8 new.code ++ u8 prev.code ++ u8 kind.code
  | .slip new dp ds => flag new ++ i32 dp ++ i32 ds
  | .source new cause => u8 (Encoder.code new) ++ u8 cause.code
  | .standstill new => flag new
  | .retrace new hw => flag new ++ i32 hw
  | .limit new e => flag new ++ u8 e.code
  | .overspeed new speed step => flag new ++ u16 speed ++ u8 step
  | .lift new => flag new
  | .suspendBegin zone start cause ext => [zone] ++ i32 start ++ u8 cause.code ++ flag ext
  | .suspendEnd zone start stop cause => [zone] ++ i32 start ++ i32 stop ++ u8 cause.code
  | .encoderError p s t => u16 p ++ u16 s ++ u16 t

def Finding.body (f : Finding) : List Byte :=
  u16 f.runNumber.toNat ++ u8 (Rail.num f.rail) ++ u8 f.pattern.val ++ u8 f.cls.val
    ++ u8 (f.urgent.toNat + 2 * f.capped.toNat) ++ i32 f.startCell ++ u8 f.length ++ i32 f.startTick
    ++ [f.groupsSeen] ++ u8 f.peak ++ u8 f.peakBand ++ u16 f.hitTotal ++ u8 f.disposition.code
    ++ u8 (sprayNo f.spray) ++ i32 f.cp ++ u16 f.generation.toNat

def GapRecord.body (g : GapRecord) : List Byte :=
  u16 g.runNumber.toNat ++ u8 (Rail.num g.rail) ++ flag g.capped ++ i32 g.startCell ++ u16 g.length
    ++ [g.missing] ++ i32 g.cp

def HitRecord.body (h : HitRecord) : List Byte :=
  u16 h.runNumber.toNat ++ u8 (128 * Rail.num h.rail + 64 * h.kind.code + h.gate.val) ++ u8 h.probe
    ++ u8 (16 * h.group.val + h.band) ++ i32 h.x ++ i32 h.cell ++ u16 h.depth ++ u8 h.amplitude

def MarkRecord.body (m : MarkRecord) : List Byte :=
  u16 m.runNumber.toNat ++ u8 (Rail.num m.rail) ++ u8 m.outcome.code ++ u8 m.origin.code ++ i32 m.target
    ++ u8 (m.spray.val + 1) ++ u8 m.cls.val ++ u8 m.arming.code ++ i32 m.g ++ i32 m.lateness ++ i32 m.cp

def Record.kindCode : Record → Nat
  | .reply .. => 1
  | .finding _ => 2
  | .gap _ => 3
  | .hit _ => 4
  | .mark _ => 5
  | .event .. => 6
  | .loss .. => 7

def Record.body : Record → List Byte
  | .reply tag code result data => [tag, code] ++ u8 result.code ++ data
  | .finding f => f.body
  | .gap g => g.body
  | .hit h => h.body
  | .mark m => m.body
  | .event cp e => u8 e.code ++ i32 cp ++ e.fields
  | .loss shed lost first last => u16 shed ++ u16 lost ++ i32 first ++ i32 last

/-- Kind byte, length byte, body (R171). -/
def Record.bytes (r : Record) : List Byte := u8 r.kindCode ++ u8 r.body.length ++ r.body

/-- The bytes a record takes in its lane (R173). -/
def Record.size (r : Record) : Nat := 2 + r.body.length

/-- FILL: a record of its kind byte alone (R171). -/
def fillByte : Byte := 0

/-! ## CRC-16 (R55) -/

/-- One byte, most significant bit first, with the polynomial x¹⁶ + x¹² + x⁵ + 1. -/
def crcByte (c : Word16) (b : Byte) : Word16 :=
  [0, 1, 2, 3, 4, 5, 6, 7].foldl
    (fun c _ => if c.msb then (c <<< 1) ^^^ 0x1021#16 else c <<< 1) (c ^^^ (b ++ 0#8))

/-- The check over a list of bytes, from the initial value of all ones. -/
def crc16 (bs : List Byte) : Word16 := bs.foldl crcByte 0xFFFF#16

/-- A message with its check at the end, most significant byte first. -/
def withCrc (bs : List Byte) : List Byte := bs ++ u16 (crc16 bs).toNat

/-- The bytes before the check, if the last two are their check. -/
def checked (bs : List Byte) : Option (List Byte) :=
  let front := bs.take (bs.length - 2)
  if 2 ≤ bs.length ∧ bs.drop (bs.length - 2) = u16 (crc16 front).toNat then some front else none

/-! ## Lane messages (11.6.5) -/

def LaneMessage.bytes : LaneMessage → List Byte
  | .setup number probe final w =>
    withCrc (u8 0x51 ++ [number] ++ u8 (128 * final.toNat + probe)
      ++ fourGates.flatMap (fun g => u16 w[g].start ++ u16 w[g].width))
  | .fire tag mask => withCrc (u8 0x52 ++ [tag] ++ u16 mask.toNat)

/-- What a lane controller makes of a received message (R55): READY, REPORT, or corrupt when its check
fails, its kind is neither, or its length is not that of its kind. -/
def laneCommand (lane : Rail) (bs : List Byte) : Instr :=
  match checked bs with
  | some [0x61, number] => .ready lane number
  | some [0x62, tag, probe, a0, h0, l0, a1, h1, l1, a2, h2, l2, a3, h3, l3] =>
    .report lane tag probe #v[⟨a0, word16 h0 l0⟩, ⟨a1, word16 h1 l1⟩, ⟨a2, word16 h2 l2⟩, ⟨a3, word16 h3 l3⟩]
  | _ => .corruptMessage lane

/-! ## Command frames (11.6.3) -/

/-- Bits, first bit most significant, as bytes; none unless they make whole bytes (R183, R168). -/
def bytesOfBits : List Bool → Option (List Byte)
  | [] => some []
  | a :: b :: c :: d :: e :: f :: g :: h :: rest =>
    (bytesOfBits rest).map fun bs =>
      BitVec.ofNat 8 (128 * a.toNat + 64 * b.toNat + 32 * c.toNat + 16 * d.toNat + 8 * e.toNat
        + 4 * f.toNat + 2 * g.toNat + h.toNat) :: bs
  | _ => none

/-- A byte's bits, most significant first. -/
def bitsOfByte (b : Byte) : List Bool := [7, 6, 5, 4, 3, 2, 1, 0].map b.getLsbD

/-- The node number in bits 6–5 of the first byte; none for 0. -/
def nodeOf (b : Byte) : Option Node :=
  match (b.toNat / 32) % 4 with
  | 1 => some .n1
  | 2 => some .n2
  | 3 => some .n3
  | _ => none

def unitParams (ps : List Byte) : Params Unit :=
  match ps with
  | [] => .fields ()
  | _ => .wrongLength ps.length

def byteParams (ps : List Byte) : Params Byte :=
  match ps with
  | [b] => .fields b
  | _ => .wrongLength ps.length

/-- The n-th byte of a parameter list. -/
def byteAt (ps : List Byte) (n : Nat) : Byte := ps.getD n 0

def gateArgsAt (ps : List Byte) (n : Nat) : GateArgs where
  role := byteAt ps n
  windowStart := word16 (byteAt ps (n + 1)) (byteAt ps (n + 2))
  windowWidth := word16 (byteAt ps (n + 3)) (byteAt ps (n + 4))
  threshold := byteAt ps (n + 5)
  dropBand := byteAt ps (n + 6)

def probeParams (ps : List Byte) : Params WriteProbeArgs :=
  if ps.length = 41 then
    .fields {
      probe := byteAt ps 0
      enabled := byteAt ps 1
      group := byteAt ps 2
      offset := word16 (byteAt ps 3) (byteAt ps 4)
      shift := word16 (byteAt ps 5) (byteAt ps 6)
      delay := word16 (byteAt ps 7) (byteAt ps 8)
      lead := word16 (byteAt ps 9) (byteAt ps 10)
      depthFactor := word16 (byteAt ps 11) (byteAt ps 12)
      gates := #v[gateArgsAt ps 13, gateArgsAt ps 20, gateArgsAt ps 27, gateArgsAt ps 34] }
  else .wrongLength ps.length

def termArgsAt (ps : List Byte) (n : Nat) : TermArgs where
  group := byteAt ps n
  kind := byteAt ps (n + 1)
  bandMask := byteAt ps (n + 2)
  minCount := byteAt ps (n + 3)
  minAmplitude := byteAt ps (n + 4)

/-- The length is 8 + 5 × the term count carried (R127, R179). -/
def patternParams (ps : List Byte) : Params WritePatternArgs :=
  let n := (byteAt ps 7).toNat
  if 8 ≤ ps.length ∧ ps.length = 8 + 5 * n then
    .fields {
      pattern := byteAt ps 0
      flags := byteAt ps 1
      railMask := byteAt ps 2
      spread := byteAt ps 3
      minRun := byteAt ps 4
      cls := byteAt ps 5
      spray := byteAt ps 6
      terms := (List.range n).map fun i => termArgsAt ps (8 + 5 * i) }
  else .wrongLength ps.length

/-- The command a code and its parameter bytes spell (11.3); a code outside the index is
UNKNOWN_COMMAND (R179). -/
def commandOf (h : Sender) (code : Byte) (ps : List Byte) : Instr :=
  match code.toNat with
  | 0x01 => .startRun h (unitParams ps)
  | 0x02 => .pauseRun h (unitParams ps)
  | 0x03 => .resumeRun h (unitParams ps)
  | 0x04 => .endRun h (unitParams ps)
  | 0x05 => .warmReset h (unitParams ps)
  | 0x10 => .setParam h (match ps with
      | [i, a, b, c, d] => .fields { id := i, value := word32 a b c d }
      | _ => .wrongLength ps.length)
  | 0x11 => .getParam h (byteParams ps)
  | 0x12 => .writeProbe h (probeParams ps)
  | 0x13 => .readProbe h (byteParams ps)
  | 0x14 => .writeStep h (match ps with
      | [n, a, b, c, d, e, f] => .fields { step := n, probeSet := word32 a b c d, listen := word16 e f }
      | _ => .wrongLength ps.length)
  | 0x15 => .readStep h (byteParams ps)
  | 0x16 => .writePattern h (patternParams ps)
  | 0x17 => .readPattern h (byteParams ps)
  | 0x18 => .writeSpray h (match ps with
      | [n, k, a, b, c, d, col, pur] =>
        .fields { number := n, dashCount := k, dashLength := word16 a b, gapLength := word16 c d,
                  colour := col, purge := pur }
      | _ => .wrongLength ps.length)
  | 0x19 => .readSpray h (byteParams ps)
  | 0x20 => .addZone h (match ps with
      | [r, g, a, b, c, d, e, f, i, j] =>
        .fields { railMask := r, groupMask := g, start := word32 a b c d, stop := word32 e f i j }
      | _ => .wrongLength ps.length)
  | 0x21 => .cancelZone h (byteParams ps)
  | 0x22 => .listZones h (unitParams ps)
  | 0x28 => match ps with
      | [r, a] => if a = 1 then .markerResumeSkip h (.fields { rail := r, action := a })
                  else .markerResumeRetry h (.fields { rail := r, action := a })
      | _ => .markerResumeRetry h (.wrongLength ps.length)
  | 0x29 => .markerTest h (match ps with
      | [r, n] => .fields { rail := r, spray := n }
      | _ => .wrongLength ps.length)
  | 0x2A => .markerCancel h (byteParams ps)
  | 0x30 => .rebase h (match ps with
      | [a, b, c, d] => .fields (word32 a b c d)
      | _ => .wrongLength ps.length)
  | 0x38 => .subscribe h (match ps with
      | [k, a, b] => .fields { kindMask := k, classMask := word16 a b }
      | _ => .wrongLength ps.length)
  | 0x39 => .flushLane h (unitParams ps)
  | 0x3A => .partition h (match ps with
      | [a, b, c, d] => .fields { intake := a, lane1 := b, lane2 := c, lane3 := d }
      | _ => .wrongLength ps.length)
  | 0x40 => .readCell h (match ps with
      | [r, a, b, c, d] => .fields { rail := r, cell := word32 a b c d }
      | _ => .wrongLength ps.length)
  | 0x41 => .readStatus h (byteParams ps)
  | _ => .unknownCommand h code

/-- Node, tag and code of a frame's content (11.6.3). -/
def frameHeader (content : List Byte) : Option (Sender × Byte) :=
  match content with
  | b :: tag :: code :: _ => (nodeOf b).map fun n => ({ node := n, tag := tag }, code)
  | _ => none

/-- The command a frame of the intake spells. -/
def commandOfFrame (content : List Byte) : Option Instr :=
  (frameHeader content).map fun hc =>
    commandOf hc.1 hc.2 ((content.drop 4).take (content.length - 6))

end Sys2Proof.Machine
end

