-- ==== Sys2Proof/Machine/Ops.lean ====
section
/-! DEFINITION. The named operations every block uses: replacing a block of the state, offering a record to
the report lanes (R172–R174), issuing an EVENT, queueing a REPLY (R178), taking a command's frame out of
the intake (R169), the guard of a held cold reset (R31), and the free values. -/
namespace Sys2Proof.Machine

/-! ## Replacing a block -/

def State.setOdo (s : State) (x : Odometry) : State := { s with odo := x }
def State.setRun (s : State) (x : RunControl) : State := { s with run := x }
def State.setSeq (s : State) (x : Sequencer) : State := { s with seq := x }
def State.setLanes (s : State) (x : PerRail Lane) : State := { s with lanes := x }
def State.setProbes (s : State) (x : Vector Probe 32) : State := { s with probes := x }
def State.setWindows (s : State) (x : PerRail Window) : State := { s with windows := x }
def State.setZones (s : State) (x : ZoneList) : State := { s with zones := x }
def State.setEval (s : State) (x : Evaluator) : State := { s with eval := x }
def State.setMarker (s : State) (x : Marker) : State := { s with marker := x }
def State.setLink (s : State) (x : LinkState) : State := { s with link := x }
def State.setParams (s : State) (x : Parameters) : State := { s with params := x }
def State.setPins (s : State) (x : Pins) : State := { s with pins := x }

/-- Replaces one lane controller. -/
def State.setLane (s : State) (r : Rail) (x : Lane) : State := s.setLanes (s.lanes.set r x)

/-- Replaces one Cell Window. -/
def State.setWindow (s : State) (r : Rail) (x : Window) : State := s.setWindows (s.windows.set r x)

/-- Replaces one marker engine with its queue and valves. -/
def State.setEngine (s : State) (r : Rail) (x : Engine) : State :=
  s.setMarker { s.marker with engines := s.marker.engines.set r x }

/-! ## Time -/

/-- The count of periods of the 10 µs timer base: one for every 80 sample edges (R48, R155). -/
def State.now10 (s : State) : Nat := s.samples / 80

/-! ## Report lanes (R171–R174) -/

/-- The bytes of the records a lane holds; the stage does not count (R171). -/
def ReportLane.fill (l : ReportLane) : Nat := (l.records.map Record.size).sum

/-- A lane's size in bytes (R173). -/
def ReportLane.size (l : ReportLane) : Nat := l.pages * 512

/-- Whether the lane's shed or lost tally is non-zero (R174). -/
def ReportLane.owesLoss (l : ReportLane) : Bool := l.shed != 0 || l.lost != 0

/-- The loss CPs after a shedding or loss at `cp`: the last always, the first only if both tallies were 0
(R173). -/
def ReportLane.noteLoss (l : ReportLane) (cp : Int) : ReportLane :=
  { l with lastLoss := cp, firstLoss := if l.owesLoss then l.firstLoss else cp }

/-- The LOSS record of a lane's tallies (R174). -/
def ReportLane.lossRecord (l : ReportLane) : Record := .loss l.shed l.lost l.firstLoss l.lastLoss

/-- The LOSS record is queued and both tallies become 0 (R174). -/
def ReportLane.makeLoss (l : ReportLane) : ReportLane :=
  { l with records := l.records ++ [l.lossRecord], shed := 0, lost := 0 }

/-- A record that has met R173's test enters at the tail, behind the LOSS record if one is owed (R174). -/
def ReportLane.push (l : ReportLane) (r : Record) : ReportLane :=
  let l' := if l.owesLoss then l.makeLoss else l
  { l' with records := l'.records ++ [r] }

/-- Whether R173 queues the record: a HIT below 75% of the size, any other kind when it leaves the 16-byte
reserve. -/
def ReportLane.admits (l : ReportLane) (r : Record) : Bool :=
  match r with
  | .hit _ => decide (4 * l.fill < 3 * l.size)
  | _ => decide (l.fill + r.size + 16 ≤ l.size)

/-- A record reaching a lane is queued, shed or lost (R173). -/
def ReportLane.accept (l : ReportLane) (cp : Int) (r : Record) : ReportLane :=
  if l.admits r then l.push r
  else
    match r with
    | .hit _ => { l.noteLoss cp with shed := satAdd16 l.shed 1 }
    | _ => { l.noteLoss cp with lost := satAdd16 l.lost 1 }

/-- Whether a lane's subscription takes a record (R172); REPLY, WARM_RESET and LOSS do not come this way. -/
def ReportLane.takes (l : ReportLane) (r : Record) : Bool :=
  match r with
  | .finding f => l.kindMask.getLsbD 0 && l.classMask.getLsbD f.cls.val
  | .gap _ => l.kindMask.getLsbD 1
  | .hit _ => l.kindMask.getLsbD 2
  | .mark _ => l.kindMask.getLsbD 3
  | .event .. => l.kindMask.getLsbD 4
  | .reply .. | .loss .. => false

/-- A lane's answer to an offered record (R172). -/
def ReportLane.offered (l : ReportLane) (cp : Int) (r : Record) : ReportLane :=
  if l.takes r then l.accept cp r else l

/-- An offered record is judged by the three lanes independently (R172). -/
def LinkState.offer (l : LinkState) (cp : Int) (r : Record) : LinkState :=
  { l with lanes :=
      { n1 := l.lanes.n1.offered cp r, n2 := l.lanes.n2.offered cp r, n3 := l.lanes.n3.offered cp r } }

/-- A record for one node's lane, whatever its subscription (R172: REPLY, WARM_RESET EVENT). -/
def LinkState.sendTo (l : LinkState) (n : Node) (cp : Int) (r : Record) : LinkState :=
  { l with lanes := l.lanes.set n ((l.lanes.get n).accept cp r) }

/-- A block offers a record, with the CP as it stands (R172, R173). -/
def State.emit (s : State) (r : Record) : State := s.setLink (s.link.offer s.odo.cp r)

/-- An EVENT with the CP at the change (R17, 11.6.4). -/
def State.event (s : State) (e : Event) : State := s.emit (.event s.odo.cp e)

/-- An EVENT if a condition changed. -/
def State.eventIf (s : State) (c : Bool) (e : Event) : State := if c then s.event e else s

/-! ## Replies (R178, R179) -/

/-- The REPLY of a command, on the sender's lane. -/
def State.reply (s : State) (h : Sender) (code : Byte) (result : Result) (data : List Byte) : State :=
  s.setLink (s.link.sendTo h.node s.odo.cp (.reply h.tag code result data))

/-- A refusal without data (R179). -/
def State.refuse (s : State) (h : Sender) (code : Byte) (result : Result) : State :=
  s.reply h code result []

/-- A refused run-control command: the REPLY carries the run state that refused it (R22, R179). -/
def State.refuseRun (s : State) (h : Sender) (code : Byte) (result : Result) : State :=
  s.reply h code result (u8 s.run.state.code)

/-! ## The intake (R169, R178) -/

/-- The bytes the intake holds (R169). -/
def LinkState.intakeFill (l : LinkState) : Nat := (l.intake.map List.length).sum

/-- GATE: at least 64 bytes free and no break recovery (R169). -/
def LinkState.gateOpen (l : LinkState) : Bool :=
  decide (l.intakeFill + 64 ≤ l.intakePages * 512) && !l.recovery

/-- The intake after the Command Processor has taken this command for execution: its frame leaves the
head (R169, R178). A head frame that is not this command's stays (notes/assumptions/6.md). -/
def takeHead (q : List (List Byte)) (h : Sender) (code : Byte) : List (List Byte) :=
  match q with
  | [] => []
  | f :: rest => if frameHeader f = some (h, code) then rest else q

/-- The command's frame leaves the intake. -/
def State.take (s : State) (h : Sender) (code : Byte) : State :=
  s.setLink { s.link with intake := takeHead s.link.intake h code }

/-! ## Guards -/

/-- Held in cold reset, the part counts nothing and sends nothing: a command does nothing (R31). -/
def State.unlessHeld (s : State) (f : State → State) : State := if s.held then s else f s

/-- The frame of an execution (R178, R179): not while held; the frame leaves the intake; a wrong parameter
length is answered LENGTH; else the owner judges and executes the command. -/
def State.command {α : Type} (s : State) (h : Sender) (code : Byte) (p : Params α)
    (owner : α → State → State) : State :=
  s.unlessHeld fun s =>
    match p with
    | .wrongLength _ => (s.take h code).refuse h code .length
    | .fields args => owner args (s.take h code)

/-! ## Events that follow at once -/

/-- An event that the part takes before anything else that waits: it goes to the front of the queue
(notes/assumptions/32.md). -/
def State.putFirst (s : State) (i : Instr) : State := { s with pending := i :: s.pending }

/-! ## Free values (notes/assumptions/5.md) -/

/-- `n` free values have been drawn. -/
def State.drew (s : State) (n : Nat) : State := { s with freeCtr := s.freeCtr + n }

/-- A free choice between two for the i-th draw from the state. -/
def State.freeBool (s : State) (i : Nat) : Bool := Config.freeNat (s.freeCtr + i) % 2 == 1

/-- A free integer for the i-th draw from the state. -/
def State.freeInt (s : State) (i : Nat) : Int := Config.freeInt (s.freeCtr + i)

end Sys2Proof.Machine
end

