-- ==== Sys2Proof/Machine/Operands.lean ====
section
/-! DEFINITION. The parameter table of 11.4 and the judging of carried fields: the range of each parameter
(R16, R38, R70, R76, R107, R138, R162, R180), of a probe entry (R73–R75), a pattern entry (R125–R127), a
spray pattern (R145) and a step (R36, R37), each giving the held value or a refusal. -/
namespace Sys2Proof.Machine

/-! ## Parameters (R180, R181) -/

/-- The permitted values of a parameter. -/
inductive ParamRange where
  | span (lo hi : Int)
  | listed (values : List Int)
  deriving DecidableEq, Repr

/-- A row of the table of 11.4: permitted values, stopped or live class, clamped or refused. -/
structure ParamSpec where
  range : ParamRange
  stopped : Bool
  clamped : Bool
  deriving DecidableEq, Repr

def ParamRange.holds (r : ParamRange) (x : Int) : Bool :=
  match r with
  | .span lo hi => decide (lo ≤ x) && decide (x ≤ hi)
  | .listed values => values.contains x

/-- The nearer end of a span; a listed parameter is never clamped. -/
def ParamRange.nearest (r : ParamRange) (x : Int) : Int :=
  match r with
  | .span lo hi => clampInt lo hi x
  | .listed _ => x

def liveClamped (lo hi : Int) : ParamSpec := { range := .span lo hi, stopped := false, clamped := true }
def liveRefused (lo hi : Int) : ParamSpec := { range := .span lo hi, stopped := false, clamped := false }
def stoppedRefused (lo hi : Int) : ParamSpec := { range := .span lo hi, stopped := true, clamped := false }

/-- The table of 11.4; none for an id that is not in it. -/
def paramSpec (id : Nat) : Option ParamSpec :=
  match id with
  | 1 => some (stoppedRefused 1 16)
  | 2 => some (liveClamped 1 255)
  | 3 => some (stoppedRefused 0 16)
  | 4 => some (liveClamped 10 1000)
  | 5 => some (liveClamped 10 2000)
  | 6 => some { range := .listed [1, 2, 4, 8], stopped := true, clamped := false }
  | 7 => some (stoppedRefused 0 2)
  | 8 => some (liveClamped 1 255)
  | 9 => some { range := .listed [2, 8, 32], stopped := false, clamped := false }
  | 10 => some (liveClamped 1 255)
  | 11 => some (liveClamped 1 255)
  | 12 => some (liveClamped 10 2000)
  | 13 => some (liveClamped 1 1000)
  | 14 => some (stoppedRefused 0 1023)
  | 15 => some (stoppedRefused 0 1023)
  | 16 => some (stoppedRefused 0 1023)
  | 17 => some (stoppedRefused 0 1023)
  | 18 => some (stoppedRefused 0 1023)
  | 19 => some (stoppedRefused 0 1023)
  | 20 => some (stoppedRefused 0 1023)
  | 21 => some (stoppedRefused 0 1023)
  | 22 => some (liveRefused 0 255)
  | 23 => some (liveRefused 0 255)
  | 24 => some (liveClamped 1 64)
  | 25 => some (stoppedRefused (-32768) 32767)
  | 26 => some (stoppedRefused (-32768) 32767)
  | 27 => some (liveClamped 0 65535)
  | 28 => some (liveRefused 0 2)
  | 29 => some (liveRefused 0 2)
  | 30 => some (liveClamped 0 1023)
  | 31 => some (liveClamped 0 1023)
  | 32 => some (liveClamped 10 5000)
  | 33 => some (liveClamped 1 100)
  | 34 => some (liveClamped 0 255)
  | 35 => some (liveClamped 1 8)
  | 36 => some (liveClamped 0 1000)
  | 37 => some (liveClamped 0 1000)
  | _ => none

def SecondaryMode.code : SecondaryMode → Int
  | .off => 0
  | .monitor => 1
  | .failover => 2

def SecondaryMode.ofCode (x : Int) : SecondaryMode :=
  if x = 1 then .monitor else if x = 2 then .failover else .off

def LatePolicy.code : LatePolicy → Int
  | .defer => 0
  | .drop => 1
  | .halt => 2

def LatePolicy.ofCode (x : Int) : LatePolicy :=
  if x = 1 then .drop else if x = 2 then .halt else .defer

/-- The value held for a parameter id, in the encoding SET_PARAM takes (R181). -/
def Parameters.read (p : Parameters) (id : Nat) : Int :=
  match id with
  | 1 => p.cellTicks
  | 2 => p.fireSpacing
  | 3 => p.stepCount
  | 4 => p.keepaliveMs
  | 5 => p.stillMs
  | 6 => p.encFilter
  | 7 => p.secondaryMode.code
  | 8 => p.slipLimit
  | 9 => p.liftFilter
  | 10 => p.coupleLose
  | 11 => p.coupleGain
  | 12 => p.reportWaitUs
  | 13 => p.setupWaitMs
  | 14 => p.closeMargin
  | 15 => p.bands[(0 : Fin 7)]
  | 16 => p.bands[(1 : Fin 7)]
  | 17 => p.bands[(2 : Fin 7)]
  | 18 => p.bands[(3 : Fin 7)]
  | 19 => p.bands[(4 : Fin 7)]
  | 20 => p.bands[(5 : Fin 7)]
  | 21 => p.bands[(6 : Fin 7)]
  | 22 => p.required.a.toNat
  | 23 => p.required.b.toNat
  | 24 => p.gapMin
  | 25 => p.gunOffset.a
  | 26 => p.gunOffset.b
  | 27 => p.valveLatencyUs
  | 28 => p.latePolicy.a.code
  | 29 => p.latePolicy.b.code
  | 30 => p.lateTol
  | 31 => p.mergeTicks
  | 32 => p.maxDashMs
  | 33 => p.pullinMs
  | 34 => p.holdPeriod
  | 35 => p.holdDuty
  | 36 => p.purgeMs
  | 37 => p.recoverMs
  | _ => 0

/-- A parameter stores a value taken (R180). -/
def Parameters.write (p : Parameters) (id : Nat) (x : Int) : Parameters :=
  match id with
  | 1 => { p with cellTicks := x.toNat }
  | 2 => { p with fireSpacing := x.toNat }
  | 3 => { p with stepCount := x.toNat }
  | 4 => { p with keepaliveMs := x.toNat }
  | 5 => { p with stillMs := x.toNat }
  | 6 => { p with encFilter := x.toNat }
  | 7 => { p with secondaryMode := .ofCode x }
  | 8 => { p with slipLimit := x.toNat }
  | 9 => { p with liftFilter := x.toNat }
  | 10 => { p with coupleLose := x.toNat }
  | 11 => { p with coupleGain := x.toNat }
  | 12 => { p with reportWaitUs := x.toNat }
  | 13 => { p with setupWaitMs := x.toNat }
  | 14 => { p with closeMargin := x.toNat }
  | 15 => { p with bands := p.bands.set (0 : Fin 7) x.toNat }
  | 16 => { p with bands := p.bands.set (1 : Fin 7) x.toNat }
  | 17 => { p with bands := p.bands.set (2 : Fin 7) x.toNat }
  | 18 => { p with bands := p.bands.set (3 : Fin 7) x.toNat }
  | 19 => { p with bands := p.bands.set (4 : Fin 7) x.toNat }
  | 20 => { p with bands := p.bands.set (5 : Fin 7) x.toNat }
  | 21 => { p with bands := p.bands.set (6 : Fin 7) x.toNat }
  | 22 => { p with required := { p.required with a := BitVec.ofInt 8 x } }
  | 23 => { p with required := { p.required with b := BitVec.ofInt 8 x } }
  | 24 => { p with gapMin := x.toNat }
  | 25 => { p with gunOffset := { p.gunOffset with a := x } }
  | 26 => { p with gunOffset := { p.gunOffset with b := x } }
  | 27 => { p with valveLatencyUs := x.toNat }
  | 28 => { p with latePolicy := { p.latePolicy with a := .ofCode x } }
  | 29 => { p with latePolicy := { p.latePolicy with b := .ofCode x } }
  | 30 => { p with lateTol := x.toNat }
  | 31 => { p with mergeTicks := x.toNat }
  | 32 => { p with maxDashMs := x.toNat }
  | 33 => { p with pullinMs := x.toNat }
  | 34 => { p with holdPeriod := x.toNat }
  | 35 => { p with holdDuty := x.toNat }
  | 36 => { p with purgeMs := x.toNat }
  | 37 => { p with recoverMs := x.toNat }
  | _ => p

/-- How SET_PARAM is judged (R180): refused, or taken with the value stored and OK or CLAMPED. -/
inductive ParamVerdict where
  | refused (r : Result)
  | taken (r : Result) (value : Int)
  deriving DecidableEq, Repr

/-- R180, steps 1 to 3: the id, the class against the run state, then the value. -/
def judgeParam (run : RunState) (id : Nat) (x : Int) : ParamVerdict :=
  match paramSpec id with
  | none => .refused .range
  | some spec =>
    if spec.stopped && run != .stopped then .refused .busy
    else if spec.range.holds x then .taken .ok x
    else if spec.clamped then .taken .clamped (spec.range.nearest x)
    else .refused .range

/-! ## Steps (R36, R37) -/

/-- A listen time taken at the nearer end of 10–1000. -/
def clampListen (us : Nat) : Nat := max 10 (min us 1000)

/-! ## Probe entries (R73–R75) -/

/-- A gate record as carried, if every field is in its range (R74, R75 step 3). -/
def GateArgs.gate (g : GateArgs) : Option Gate :=
  match GateRole.ofByte g.role with
  | none => none
  | some role =>
    if g.windowWidth = 0 ∨ g.windowStart.toNat + g.windowWidth.toNat - 1 > 65535 then none
    else if h : g.dropBand.toNat < 8 then
      some { role := role, windowStart := g.windowStart.toNat, windowWidth := g.windowWidth.toNat,
             threshold := g.threshold.toNat, dropBand := ⟨g.dropBand.toNat, h⟩ }
    else none

/-- Whether a carried gate's stopped fields equal those held (R34, R75 step 2). -/
def GateArgs.sameStopped (g : GateArgs) (held : Gate) : Bool :=
  decide (g.role.toNat = held.role.code) && decide (g.windowStart.toNat = held.windowStart)
    && decide (g.windowWidth.toNat = held.windowWidth)

/-- Whether every stopped field carried equals the one held (R34, R75 step 2). -/
def WriteProbeArgs.sameStopped (a : WriteProbeArgs) (held : Probe) : Bool :=
  (a.enabled.getLsbD 0 == held.enabled) && decide (a.group.toNat = held.group.val)
    && decide (a.offset.toInt = held.offset) && decide (a.shift.toInt = held.shift)
    && fourGates.all fun i => GateArgs.sameStopped a.gates[i] held.gates[i]

/-- D above 4095 is taken as 4095 (R75 step 4). -/
def WriteProbeArgs.delayTaken (a : WriteProbeArgs) : Nat := min a.delay.toNat 4095

/-- The entry as carried, if every field is in its range (R75 step 3). -/
def WriteProbeArgs.entry (a : WriteProbeArgs) : Option Probe :=
  match GateArgs.gate a.gates[(0 : Fin 4)], GateArgs.gate a.gates[(1 : Fin 4)],
      GateArgs.gate a.gates[(2 : Fin 4)], GateArgs.gate a.gates[(3 : Fin 4)] with
  | some g0, some g1, some g2, some g3 =>
    if h : a.group.toNat < 8 then
      if -4096 ≤ a.offset.toInt ∧ a.offset.toInt ≤ 4095 ∧ -1024 ≤ a.shift.toInt ∧ a.shift.toInt ≤ 1023 then
        some { enabled := a.enabled.getLsbD 0, group := ⟨a.group.toNat, h⟩, offset := a.offset.toInt,
               shift := a.shift.toInt, delay := WriteProbeArgs.delayTaken a, lead := a.lead.toInt,
               depthFactor := a.depthFactor.toNat, gates := #v[g0, g1, g2, g3] }
      else none
    else none
  | _, _, _, _ => none

/-! ## Pattern entries (R125–R127) -/

/-- A term as carried, if in range. A DROP term's band mask may be empty (R127 step 3). -/
def TermArgs.term (t : TermArgs) : Option Term :=
  match HitKind.ofByte t.kind with
  | none => none
  | some kind =>
    if h : t.group.toNat < 8 then
      if t.minCount = 0 ∨ t.minCount.toNat > 15 ∨ (kind = .flaw ∧ t.bandMask = 0) then none
      else some { group := ⟨t.group.toNat, h⟩, kind := kind, bands := t.bandMask,
                  minCount := t.minCount.toNat, minAmplitude := t.minAmplitude.toNat }
    else none

/-- The terms, if every one is in range. -/
def termsOf : List TermArgs → Option (List Term)
  | [] => some []
  | t :: rest =>
    match TermArgs.term t, termsOf rest with
    | some t', some rest' => some (t' :: rest')
    | _, _ => none

/-- A spray pattern number 1–7 (R145). -/
def sprayOf (b : Byte) : Option (Fin 7) :=
  if h : 1 ≤ b.toNat ∧ b.toNat ≤ 7 then some ⟨b.toNat - 1, by omega⟩ else none

/-- The entry as carried, if every field is in its range (R127 step 3). Bits of the flags byte and of the
rail mask that no layout assigns are ignored (R183). -/
def WritePatternArgs.entry (a : WritePatternArgs) : Option Pattern :=
  match termsOf a.terms with
  | none => none
  | some terms =>
    if h : a.cls.toNat < 16 then
      if terms.length = 0 ∨ terms.length > 4 ∨ a.spread.toNat > 3 ∨ a.minRun = 0 ∨ a.minRun.toNat > 64
          ∨ a.spray.toNat > 7 then none
      else some { enabled := a.flags.getLsbD 0, rails := a.railMask.truncate 2, spread := a.spread.toNat,
                  minRun := a.minRun.toNat, cls := ⟨a.cls.toNat, h⟩, spray := sprayOf a.spray,
                  urgent := a.flags.getLsbD 1, terms := terms }
    else none

/-! ## Spray patterns (R145) -/

/-- The entry as carried, if every field is in its range. A purge or colour byte above 1 is out of range
(notes/assumptions/12.md). -/
def WriteSprayArgs.entry (a : WriteSprayArgs) : Option Spray :=
  if 1 ≤ a.dashCount.toNat ∧ a.dashCount.toNat ≤ 4 ∧ 1 ≤ a.dashLength.toNat ∧ a.dashLength.toNat ≤ 1023
      ∧ 1 ≤ a.gapLength.toNat ∧ a.gapLength.toNat ≤ 1023 ∧ a.colour.toNat ≤ 1 ∧ a.purge.toNat ≤ 1 then
    some { dashCount := a.dashCount.toNat, dashLength := a.dashLength.toNat,
           gapLength := a.gapLength.toNat, colour := a.colour = 1, purge := a.purge = 1 }
  else none

end Sys2Proof.Machine
end

