-- ==== Sys2Proof/Machine/Flags.lean ====
section
/-! DEFINITION. The conditions of the part and how each is set and cleared: LIMIT (R6), RETRACE (R7),
STANDSTILL (R9), the keep-alive timer's running condition (R40), the suspension causes (R26), the lead
(R148) and the configuration generation counter (R35). -/
namespace Sys2Proof.Machine

/-- LIMIT of a coordinate: whether it stands at an end of its range, and at which (R6). -/
def limitOf (cp : Int) : Option LimitEnd :=
  if cp = tickMax then some .upper else if cp = tickMin then some .lower else none

/-- LIMIT follows CP, with a LIMIT EVENT if it changes; a clearing EVENT names the end left (R6). -/
def State.followLimit (s : State) : State :=
  let new := limitOf s.odo.cp
  let s' := s.setOdo { s.odo with limit := new }
  match s.odo.limit, new with
  | none, none => s'
  | some _, some e => s'.eventIf (s.odo.limit != new) (.limit true e)
  | none, some e => s'.event (.limit true e)
  | some e, none => s'.event (.limit false e)

/-- RETRACE shows CP below HW, with a RETRACE EVENT if it changes (R7). -/
def State.followRetrace (s : State) : State :=
  let new := decide (s.odo.cp < s.odo.hw)
  (s.setOdo { s.odo with retrace := new }).eventIf (s.odo.retrace != new) (.retrace new s.odo.hw)

/-- A source tick clears STANDSTILL, with a STANDSTILL EVENT if it was set (R9). -/
def State.clearStandstill (s : State) : State :=
  (s.setOdo { s.odo with standstill := false }).eventIf s.odo.standstill (.standstill false)

/-- Whether the keep-alive timer runs (R40). -/
def State.keepAliveRuns (s : State) : Bool :=
  !s.odo.lifted &&
    ((decide (s.run.state = .running) && s.odo.standstill) || decide (s.run.state = .paused))

/-- When its condition does not hold, the keep-alive timer returns to 0 at once (R40). -/
def State.settleKeepAlive (s : State) : State :=
  if s.keepAliveRuns then s else s.setSeq { s.seq with keepAliveTimer := 0 }

/-- Whether a cause of suspension holds in a run in progress (R26). -/
def State.suspensionCause (s : State) : Bool :=
  decide (s.run.state = .paused) || (decide (s.run.state = .running) && s.odo.lifted)

/-- Whether the distance conditions of R39 and R43 other than the distance hold: RUNNING, no suspension,
STANDSTILL clear. -/
def State.distanceAllowed (s : State) : Bool :=
  decide (s.run.state = .running) && !s.run.suspension && !s.odo.standstill

/-- The lead of a speed and a valve latency (R148). -/
def leadOf (speed latency : Nat) : Nat := min (speed * latency / 1000000) 4095

/-- The lead is recomputed (R148). -/
def State.updateLead (s : State) : State :=
  s.setMarker { s.marker with lead := leadOf s.odo.speed s.params.valveLatencyUs }

/-- An accepted configuration write adds 1 to the generation counter, wrapping (R35). -/
def State.bumpGeneration (s : State) : State :=
  s.setRun { s.run with generation := s.run.generation + 1 }

/-- The mark that ends the cycle in progress after its current step; none is set in IDLE (R46). -/
def State.markStopping (s : State) : State :=
  match s.seq.cycle with
  | .idle => s
  | .stepping _ => s.setSeq { s.seq with stopping := true }

end Sys2Proof.Machine
end

