-- ==== Sys2Proof/Machine/Zones.lean ====
section
/-! DEFINITION. The Zone List (chapter 7): order and ids, muting of hits and cells, expiry, the opening and
finishing of the SUSPEND zone, and the commands ADD_ZONE, CANCEL_ZONE and LIST_ZONES. -/
namespace Sys2Proof.Machine

/-! ## Order and ids (R112, R113) -/

/-- Ascending start tick, equal starts by ascending id (R112). -/
def Zone.before (x y : Zone) : Bool :=
  decide (x.start < y.start) || (decide (x.start = y.start) && decide (x.id.toNat < y.id.toNat))

/-- A zone at its place in the order (R112). -/
def insertZone (z : Zone) : List Zone → List Zone
  | [] => [z]
  | y :: ys => if z.before y then z :: y :: ys else y :: insertZone z ys

/-- The first value from the counter on that no zone holds, looking at most `n` values further (R113). -/
def freeIdFrom (zones : List Zone) : Nat → Byte → Byte
  | 0, c => c
  | n + 1, c => if zones.any (fun z => z.id == c) then freeIdFrom zones n (c + 1) else c

/-- The id the next zone takes (R113). -/
def ZoneList.nextId (l : ZoneList) : Byte := freeIdFrom l.zones l.zones.length l.idCounter

def Zone.isMute (z : Zone) : Bool :=
  match z.kind with
  | .mute => true
  | .suspend => false

/-- The MUTE zones in the list (R112). -/
def ZoneList.muteCount (l : ZoneList) : Nat := (l.zones.filter Zone.isMute).length

/-- The SUSPEND zone, if the slot is not empty (R118). -/
def ZoneList.suspendZone (l : ZoneList) : Option Zone := l.zones.find? (fun z => !z.isMute)

/-- The SUSPEND slot: 0 empty, 1 open, 2 finished (R182, section 5). -/
def ZoneList.suspendSlot (l : ZoneList) : Nat :=
  match l.suspendZone with
  | none => 0
  | some z => if z.stop.isNone then 1 else 2

/-! ## Muting (R94, R95, R120) -/

/-- Whether a zone covers a rail and a group (R94). -/
def Zone.holds (z : Zone) (r : Rail) (g : Fin 8) : Bool := holdsRail z.rails r && z.groups.getLsbD g.val

/-- Whether a tick lies at or below the zone's end; an open zone has none (R112). -/
def Zone.reaches (z : Zone) (t : Int) : Bool :=
  match z.stop with
  | none => true
  | some e => decide (t ≤ e)

/-- Whether a zone covers a tick (R112). -/
def Zone.covers (z : Zone) (t : Int) : Bool := decide (z.start ≤ t) && z.reaches t

/-- Whether a zone overlaps the span of ticks from `lo` to `hi` (R94). -/
def Zone.overlaps (z : Zone) (lo hi : Int) : Bool := decide (z.start ≤ hi) && z.reaches lo

/-- Whether a zone takes part in the muting of hits as they are judged: every zone does (R120), but the open SUSPEND
zone not while PAUSED, when the hits of rail fired before the pause are still entered (R27; DEDUCED,
notes/assumptions/39.md). -/
def State.mutesHits (s : State) (z : Zone) : Bool := z.isMute || z.stop.isSome || s.run.state != .paused

/-- Whether a hit of a group at X is muted (R95 case 4, R120, R27). -/
def State.mutesHit (s : State) (r : Rail) (g : Fin 8) (x : Int) : Bool :=
  s.zones.zones.any fun z => s.mutesHits z && (z.holds r g && z.covers x)

/-- The muted group mask of cell `j` (R94). -/
def ZoneList.mutedMask (l : ZoneList) (r : Rail) (cellTicks : Nat) (j : Int) : Byte :=
  maskOf fun g => l.zones.any fun z =>
    z.holds r g && z.overlaps (j * cellTicks) (j * cellTicks + cellTicks - 1)

/-! ## Expiry (R116) -/

/-- The close tick K × CELL_TICKS of a rail (0.7). CELL_TICKS is the value held: in STOPPED a write moves the close tick
at once, though the windows use the value from the next START_RUN (R107; DESIGN CHOICE, notes/assumptions/42.md). -/
def State.closeTick (s : State) (r : Rail) : Int := (s.windows.get r).k * s.params.cellTicks

/-- Whether a zone has expired: it has an end, and the end lies below the close tick of every rail of its
mask (R116). -/
def State.expired (s : State) (z : Zone) : Bool :=
  match z.stop with
  | none => false
  | some e =>
    (!holdsRail z.rails .a || decide (e < s.closeTick .a))
      && (!holdsRail z.rails .b || decide (e < s.closeTick .b))

/-- The expiry test (R116, R121 step 2). -/
def State.expireZones (s : State) : State :=
  s.setZones { s.zones with zones := s.zones.zones.filter fun z => !s.expired z }

/-! ## The SUSPEND zone (R118, R119, R123) -/

/-- The start computed at an onset (R118), in the range of a start tick (R112; notes/assumptions/20.md). -/
def State.suspendStart (s : State) : Int :=
  clampInt tickMin tickMax (s.odo.cp + s.run.reachAll.least - s.params.closeMargin)

/-- The SUSPEND zone opened in an empty slot (R112, R118). -/
def newSuspend (id : Byte) (start : Int) : Zone where
  id := id
  kind := .suspend
  rails := 3
  groups := 0xFF
  start := start
  stop := none
  node := none

/-- The onset of a suspension: the zone is opened, or a finished one opened again, with a SUSPEND_BEGIN
EVENT (R118, R123). -/
def State.beginSuspension (s : State) (cause : SuspendBeginCause) : State :=
  let s := s.setRun { s.run with suspension := true }
  let start := s.suspendStart
  match s.zones.suspendZone with
  | none =>
    let id := s.zones.nextId
    (s.setZones { zones := insertZone (newSuspend id start) s.zones.zones, idCounter := id + 1 }).event
      (.suspendBegin id start cause false)
  | some z =>
    let z' := { z with start := min z.start start, stop := none }
    (s.setZones { s.zones with zones := insertZone z' (s.zones.zones.filter Zone.isMute) }).event
      (.suspendBegin z'.id z'.start cause true)

/-- The end tick computed at the end of a suspension (R119). -/
def State.suspendStop (s : State) (start : Int) : Int :=
  max start (min tickMax (s.odo.cp + s.run.reachAll.greatest))

/-- The end of a suspension: the open zone is finished, with a SUSPEND_END EVENT (R119, R123). -/
def State.endSuspension (s : State) (cause : SuspendEndCause) : State :=
  let s := s.setRun { s.run with suspension := false }
  match s.zones.suspendZone with
  | none => s
  | some z =>
    let stop := s.suspendStop z.start
    (s.setZones { s.zones with zones := s.zones.zones.map fun y =>
        if y.isMute then y else { y with stop := some stop } }).event
      (.suspendEnd z.id z.start stop cause)

/-- Suspension is judged again: an onset or an end if the causes ask for one (R26). -/
def State.judgeSuspension (s : State) (onset : SuspendBeginCause) (finish : SuspendEndCause) : State :=
  if s.suspensionCause && !s.run.suspension then s.beginSuspension onset
  else if !s.suspensionCause && s.run.suspension then s.endSuspension finish
  else s

/-! ## ADD_ZONE (R114) -/

/-- R114 test 3: in a run, the end must reach the close tick of at least one rail of the mask. -/
def State.zonePast (s : State) (rails : BitVec 2) (stop : Int) : Bool :=
  decide (s.run.state ≠ .stopped)
    && !((holdsRail rails .a && decide (s.closeTick .a ≤ stop))
          || (holdsRail rails .b && decide (s.closeTick .b ≤ stop)))

/-- The MUTE zone of a taken ADD_ZONE (R114). -/
def muteZone (id : Byte) (a : AddZoneArgs) (n : Node) : Zone where
  id := id
  kind := .mute
  rails := a.railMask.truncate 2
  groups := a.groupMask
  start := a.start.toInt
  stop := some a.stop.toInt
  node := some n

/-- ADD_ZONE judged and executed (R114). Bits of the rail mask beyond the two rails are ignored (R183). -/
def addZone (h : Sender) (a : AddZoneArgs) (s : State) : State :=
  let rails : BitVec 2 := a.railMask.truncate 2
  if rails = 0 ∨ a.groupMask = 0 then s.refuse h 0x20 .range
  else if a.stop.toInt < a.start.toInt then s.refuse h 0x20 .range
  else if s.zonePast rails a.stop.toInt then s.refuse h 0x20 .past
  else if 16 ≤ s.zones.muteCount then s.refuse h 0x20 .full
  else
    let id := s.zones.nextId
    (s.setZones { zones := insertZone (muteZone id a h.node) s.zones.zones, idCounter := id + 1 }).reply
      h 0x20 .ok [id]

def execAddZone (h : Sender) (p : Params AddZoneArgs) (s : State) : Host.Outcome State Fault Refusal :=
  .next (s.command h 0x20 p (addZone h))

/-! ## CANCEL_ZONE (R115) -/

def cancelZone (h : Sender) (id : Byte) (s : State) : State :=
  match s.zones.zones.find? (fun z => z.id == id) with
  | none => s.refuse h 0x21 .notFound
  | some z =>
    if z.isMute then
      (s.setZones { s.zones with zones := s.zones.zones.filter fun y => y.id != id }).reply h 0x21 .ok []
    else s.refuse h 0x21 .state

def execCancelZone (h : Sender) (p : Params Byte) (s : State) : Host.Outcome State Fault Refusal :=
  .next (s.command h 0x21 p (cancelZone h))

/-! ## LIST_ZONES (R117) -/

/-- A zone in the REPLY of LIST_ZONES, 14 bytes (note of 11.3). `absent` stands in the end field of an
open zone, whose mark says that no end is present. -/
def Zone.bytes (absent : Int) (z : Zone) : List Byte :=
  [z.id] ++ u8 (if z.isMute then 0 else 1) ++ u8 z.rails.toNat ++ [z.groups] ++ i32 z.start
    ++ i32 (z.stop.getD absent) ++ flag z.stop.isSome
    ++ u8 (match z.node with
        | none => 0
        | some n => Node.num n)

/-- The list as it stands (R117). The end field of an open zone is a free value: the manual gives its mark
and no value (notes/assumptions/5.md). -/
def listZones (h : Sender) (_ : Unit) (s : State) : State :=
  ((s.reply h 0x22 .ok ([s.zones.idCounter] ++ u8 s.zones.zones.length
    ++ s.zones.zones.flatMap (Zone.bytes (s.freeInt 0))))).drew 1

def execListZones (h : Sender) (p : Params Unit) (s : State) : Host.Outcome State Fault Refusal :=
  .next (s.command h 0x22 p (listZones h))

end Sys2Proof.Machine
end

