-- ==== Sys2Proof/Machine/Marking.lean ====
section
/-! DEFINITION. The Marker Controller (chapter 9): gun coordinate and fire point, the due test and the late
policies, offers, the engine and its waveform, and the marker commands. -/
namespace Sys2Proof.Machine

/-! ## Gun coordinate, fire point, due test (R148, R149) -/

/-- The gun coordinate G (R148). -/
def State.gun (s : State) (r : Rail) : Int := s.odo.cp + s.params.gunOffset.get r

/-- The fire point F of a target (R148). -/
def State.firePoint (s : State) (target : Int) : Int := target - s.marker.lead

/-- G − F of an entry. -/
def State.past (s : State) (r : Rail) (e : MarkerEntry) : Int := s.gun r - s.firePoint e.target

/-- Whether an EITHER entry becomes due: G − F is 0 or on the other side of 0 from the recorded one
(R149). -/
def crossed (side : Option Side) (d : Int) : Bool :=
  decide (d = 0) ||
    match side with
    | some .below => decide (0 < d)
    | some .above => decide (d < 0)
    | none => false

/-- Whether an entry is due (R149). -/
def State.isDue (s : State) (r : Rail) (e : MarkerEntry) : Bool :=
  match e.arming with
  | .normal => decide (0 ≤ s.past r e)
  | .either => e.due

/-- The lateness of an entry: G − F for NORMAL, 0 for EITHER (R150). -/
def State.lateness (s : State) (r : Rail) (e : MarkerEntry) : Int :=
  match e.arming with
  | .normal => s.past r e
  | .either => 0

/-- An EITHER head that becomes due stays due (R149). -/
def State.latch (s : State) (r : Rail) (e : MarkerEntry) : MarkerEntry :=
  match e.arming with
  | .normal => e
  | .either => { e with due := e.due || crossed e.side (s.past r e) }

/-- A MARK record of a queue entry, with G and CP as they stand (R161). -/
def State.markRecord (s : State) (r : Rail) (outcome : MarkOutcome) (e : MarkerEntry) (late : Int) : Record :=
  .mark {
    runNumber := s.run.runNumber, rail := r, outcome := outcome, origin := e.origin, target := e.target,
    spray := e.spray, cls := e.cls, arming := e.arming, g := s.gun r, lateness := late, cp := s.odo.cp }

/-- Replaces one rail's queue. -/
def State.setQueue (s : State) (r : Rail) (q : List MarkerEntry) : State :=
  s.setEngine r { s.marker.engines.get r with queue := q }

/-- The due test with at most `n` heads dropped: the head is latched; under DROP a due head later than
LATE_TOL is removed with a MARK record and the new head tested (R149, R152). -/
def dueTestLoop (r : Rail) : Nat → State → State
  | 0, s => s
  | n + 1, s =>
    match (s.marker.engines.get r).queue with
    | [] => s
    | e :: rest =>
      if s.isDue r (s.latch r e) && decide (s.params.latePolicy.get r = .drop)
          && decide ((s.params.lateTol : Int) < s.lateness r e) then
        dueTestLoop r n ((s.setQueue r rest).emit (s.markRecord r .droppedLate e (s.lateness r e)))
      else s.setQueue r (s.latch r e :: rest)

/-- The due test of a rail (R149), with the judging of DROP (R152). -/
def State.dueTest (s : State) (r : Rail) : State :=
  dueTestLoop r ((s.marker.engines.get r).queue.length + 1) s

/-- The due tests of both rails. -/
def State.dueTests (s : State) : State := (s.dueTest .a).dueTest .b

/-! ## Offers (R147) -/

/-- An entry after every entry whose target is at most its own (R147). -/
def insertEntry (e : MarkerEntry) : List MarkerEntry → List MarkerEntry
  | [] => [e]
  | x :: xs => if x.target ≤ e.target then x :: insertEntry e xs else e :: x :: xs

/-- R147 case 1: the tail has the same spray pattern and takes the target within MERGE_TICKS. -/
def merges (q : List MarkerEntry) (target : Int) (spray : Fin 7) (mergeTicks : Nat) : Bool :=
  match q.getLast? with
  | none => false
  | some t => decide (t.spray = spray) && decide (t.target ≤ target) && decide (target ≤ t.target + mergeTicks)

/-- The entry a FINDING offers (R147). -/
def offeredEntry (target : Int) (spray : Fin 7) (cls : Fin 16) : MarkerEntry where
  target := target
  spray := spray
  cls := cls
  origin := .finding
  arming := .normal
  side := none
  due := false

/-- How the queue decides an offer (R147). -/
def State.offerVerdict (s : State) (r : Rail) (target : Int) (spray : Fin 7) : Disposition :=
  let q := (s.marker.engines.get r).queue
  if merges q target spray s.params.mergeTicks then .merged
  else if 16 ≤ q.length then .queueFull
  else .queued

/-- The queue after an offer: changed only when the offer is queued (R147). -/
def State.takeOffer (s : State) (r : Rail) (target : Int) (spray : Fin 7) (cls : Fin 16) : State :=
  match s.offerVerdict r target spray with
  | .queued => s.setQueue r (insertEntry (offeredEntry target spray cls) (s.marker.engines.get r).queue)
  | _ => s

/-! ## Engine phases (R155–R157) -/

/-- The colour valve of a mark, on. -/
def colourValve (m : Mark) : Valves := { colour0 := !m.shape.colour, colour1 := m.shape.colour, purge := false }

/-- The purge valve on. -/
def purgeValve : Valves := { colour0 := false, colour1 := false, purge := true }

/-- Sets an engine's phase, mark and outputs together (R157). -/
def State.enter (s : State) (r : Rail) (e : EngineState) (v : Valves) : State :=
  s.setEngine r { s.marker.engines.get r with state := e, valves := v }

/-- PULLIN of a dash begins: distance and time counts from 0, PULLIN_MS and MAX_DASH_MS read, the colour
valve fully on (R155). -/
def State.beginPullin (s : State) (r : Rail) (m : Mark) (dash : Nat) : State :=
  s.enter r (.painting .pullin { m with
    dash := dash, distance := 0, elapsed := 0, dashElapsed := 0,
    phaseTime := msPeriods s.params.pullinMs, dashTime := msPeriods s.params.maxDashMs }) (colourValve m)

/-- The on-time of a hold drive period, in 10 µs periods (R156). -/
def holdOnTime (period duty : Nat) : Nat := max 1 ((period + 1) * duty / 8)

/-- HOLD begins with its first drive period, the valve on; HOLD_PERIOD and HOLD_DUTY are read (R156). -/
def State.beginHold (s : State) (r : Rail) (m : Mark) : State :=
  s.enter r (.painting .hold { m with
    elapsed := 0, holdPeriod := s.params.holdPeriod + 1,
    holdOn := holdOnTime s.params.holdPeriod s.params.holdDuty, holdCount := 0 }) (colourValve m)

/-- GAP begins: counts from 0, MAX_DASH_MS read, all valves off (R155). The dash in progress stays the one just ended until
the next PULLIN (DESIGN CHOICE, notes/assumptions/41.md). -/
def State.beginGap (s : State) (r : Rail) (m : Mark) : State :=
  s.enter r (.painting .gap { m with
    distance := 0, elapsed := 0, phaseTime := msPeriods s.params.maxDashMs }) .off

/-- The engine enters IDLE: no current mark, valves off, and the due test is made (R149, R155). -/
def State.enterIdle (s : State) (r : Rail) : State := (s.enter r .idle .off).dueTest r

/-- RECOVER begins; a RECOVER_MS of 0 returns the engine to IDLE as it begins (R155). The distance starts at 0
and the dash in progress stays the last (DESIGN CHOICE, notes/assumptions/34.md, 41.md). -/
def State.beginRecover (s : State) (r : Rail) (m : Mark) : State :=
  if s.params.recoverMs = 0 then s.enterIdle r
  else s.enter r (.painting .recover { m with
    distance := 0, elapsed := 0, phaseTime := msPeriods s.params.recoverMs }) .off

/-- After the last dash, or a cut: PURGE if the shape has purge and PURGE_MS is above 0, else RECOVER
(R155, R160). The distance starts at 0 and the dash in progress stays the last (DESIGN CHOICE, notes/assumptions/34.md,
41.md). -/
def State.afterDashes (s : State) (r : Rail) (m : Mark) : State :=
  if m.shape.purge && decide (0 < s.params.purgeMs) then
    s.enter r (.painting .purge { m with
      distance := 0, elapsed := 0, phaseTime := msPeriods s.params.purgeMs }) purgeValve
  else s.beginRecover r m

/-- A change of CP counts toward the dash in PULLIN and HOLD and toward the gap in GAP (R155), and in no other
phase (DESIGN CHOICE, notes/assumptions/34.md). -/
def EngineState.countDistance (e : EngineState) : EngineState :=
  match e with
  | .painting .pullin m => .painting .pullin { m with distance := m.distance + 1 }
  | .painting .hold m => .painting .hold { m with distance := m.distance + 1 }
  | .painting .gap m => .painting .gap { m with distance := m.distance + 1 }
  | e => e

/-- A change of CP at one rail's engine (R155). -/
def State.countDistance (s : State) (r : Rail) : State :=
  let e := s.marker.engines.get r
  s.setEngine r { e with state := e.state.countDistance }

/-- The mark made of an entry, before its first PULLIN: the shape is copied (R145, R150). -/
def State.markOf (s : State) (e : MarkerEntry) : Mark where
  target := e.target
  spray := e.spray
  cls := e.cls
  origin := e.origin
  arming := e.arming
  shape := s.marker.sprays[e.spray]
  dash := 1
  distance := 0
  elapsed := 0
  dashElapsed := 0
  phaseTime := 0
  dashTime := 0
  holdPeriod := 0
  holdOn := 0
  holdCount := 0

/-! ## Events of the engine -/

/-- The IDLE engine takes its due head: fired within LATE_TOL, else the late policy decides (R150–R153).
With no due head or a busy engine the event does not occur (notes/assumptions/4.md). -/
def headTaken (r : Rail) (s : State) : State :=
  match (s.marker.engines.get r).state, (s.marker.engines.get r).queue with
  | .idle, e :: rest =>
    if s.isDue r e then
      if s.lateness r e ≤ s.params.lateTol then
        (((s.setQueue r rest).beginPullin r (s.markOf e) 1).emit
          (s.markRecord r .fired e (s.lateness r e))).dueTest r
      else
        match s.params.latePolicy.get r with
        | .halt => (s.enter r .halted .off).emit (s.markRecord r .halted e (s.lateness r e))
        | _ => ((s.setQueue r rest).emit (s.markRecord r .droppedLate e (s.lateness r e))).dueTest r
    else s
  | _, _ => s

def execHeadTaken (r : Rail) (s : State) : Host.Outcome State Fault Refusal :=
  .next (s.unlessHeld (headTaken r))

/-- PULLIN_MS has elapsed: HOLD begins (R155). -/
def pullinEnd (r : Rail) (s : State) : State :=
  match (s.marker.engines.get r).state with
  | .painting .pullin m => s.beginHold r m
  | _ => s

def execPullinEnd (r : Rail) (s : State) : Host.Outcome State Fault Refusal :=
  .next (s.unlessHeld (pullinEnd r))

/-- In HOLD the on-time or the period has elapsed: the colour valve goes off, or on with a new period. An
on-time equal to the period leaves it on (R156). -/
def holdPulsePeriod (r : Rail) (s : State) : State :=
  match (s.marker.engines.get r).state with
  | .painting .hold m =>
    if (s.marker.engines.get r).valves = colourValve m ∧ m.holdOn < m.holdPeriod then
      s.enter r (.painting .hold { m with holdCount := m.holdOn }) .off
    else s.enter r (.painting .hold { m with holdCount := 0 }) (colourValve m)
  | _ => s

def execHoldPulsePeriod (r : Rail) (s : State) : Host.Outcome State Fault Refusal :=
  .next (s.unlessHeld (holdPulsePeriod r))

/-- HOLD ends: GAP if dashes remain, else what follows the last dash (R155). -/
def holdEnd (r : Rail) (s : State) : State :=
  match (s.marker.engines.get r).state with
  | .painting .hold m => if m.dash < m.shape.dashCount then s.beginGap r m else s.afterDashes r m
  | _ => s

def execHoldEnd (r : Rail) (s : State) : Host.Outcome State Fault Refusal :=
  .next (s.unlessHeld (holdEnd r))

/-- GAP ends: PULLIN of the next dash (R155). -/
def gapEnd (r : Rail) (s : State) : State :=
  match (s.marker.engines.get r).state with
  | .painting .gap m => s.beginPullin r m (m.dash + 1)
  | _ => s

def execGapEnd (r : Rail) (s : State) : Host.Outcome State Fault Refusal :=
  .next (s.unlessHeld (gapEnd r))

/-- PURGE ends: RECOVER (R155). -/
def purgeEnd (r : Rail) (s : State) : State :=
  match (s.marker.engines.get r).state with
  | .painting .purge m => s.beginRecover r m
  | _ => s

def execPurgeEnd (r : Rail) (s : State) : Host.Outcome State Fault Refusal :=
  .next (s.unlessHeld (purgeEnd r))

/-- RECOVER ends: IDLE and the due test (R155, R149). -/
def recoverEnd (r : Rail) (s : State) : State :=
  match (s.marker.engines.get r).state with
  | .painting .recover _ => s.enterIdle r
  | _ => s

def execRecoverEnd (r : Rail) (s : State) : Host.Outcome State Fault Refusal :=
  .next (s.unlessHeld (recoverEnd r))

/-! ## MARKER_RESUME (R154) -/

/-- The side of an entry at re-arming; none when G = F (R149). -/
def sideOf (d : Int) : Option Side :=
  if d < 0 then some .below else if 0 < d then some .above else none

/-- The head re-armed as EITHER, its side recorded; due at once when G = F (R149, R154). -/
def State.rearm (s : State) (r : Rail) (e : MarkerEntry) : MarkerEntry :=
  { e with arming := .either, side := sideOf (s.past r e), due := decide (s.past r e = 0) }

/-- RETRY in HALTED (R154). -/
def State.resumeRetry (s : State) (r : Rail) : State :=
  match (s.marker.engines.get r).queue with
  | [] => s.enterIdle r
  | e :: rest => (s.setQueue r (s.rearm r e :: rest)).enterIdle r

/-- SKIP in HALTED (R154). -/
def State.resumeSkip (s : State) (r : Rail) : State :=
  match (s.marker.engines.get r).queue with
  | [] => s.enterIdle r
  | e :: rest => ((s.setQueue r rest).emit (s.markRecord r .skipped e 0)).enterIdle r

/-- MARKER_RESUME judged (R154): rail and action, then HALTED; the REPLY carries the phase after. -/
def markerResume (h : Sender) (a : MarkerResumeArgs) (s : State) : State :=
  match railOf a.rail with
  | none => s.refuse h 0x28 .range
  | some r =>
    if 1 < a.action.toNat then s.refuse h 0x28 .range
    else
      match (s.marker.engines.get r).state with
      | .halted =>
        let s' := if a.action = 0 then s.resumeRetry r else s.resumeSkip r
        s'.reply h 0x28 .ok (u8 (s'.marker.engines.get r).state.code)
      | _ => s.refuse h 0x28 .state

def execMarkerResumeRetry (h : Sender) (p : Params MarkerResumeArgs) (s : State) :
    Host.Outcome State Fault Refusal :=
  .next (s.command h 0x28 p (markerResume h))

def execMarkerResumeSkip (h : Sender) (p : Params MarkerResumeArgs) (s : State) :
    Host.Outcome State Fault Refusal :=
  .next (s.command h 0x28 p (markerResume h))

/-! ## MARKER_TEST (R159) -/

/-- The entry that stands for a test mark: the gun coordinate as target, class 0. Its arming is a free
value: the manual gives none (notes/assumptions/5.md). -/
def State.testEntry (s : State) (r : Rail) (spray : Fin 7) : MarkerEntry where
  target := s.gun r
  spray := spray
  cls := 0
  origin := .test
  arming := if s.freeBool 0 then .either else .normal
  side := none
  due := false

def markerTest (h : Sender) (a : MarkerTestArgs) (s : State) : State :=
  match railOf a.rail, sprayOf a.spray with
  | some r, some n =>
    match (s.marker.engines.get r).state with
    | .idle =>
      let e := s.testEntry r n
      (((s.beginPullin r (s.markOf e) 1).emit (s.markRecord r .testFired e 0)).drew 1).reply h 0x29 .ok []
    | _ => s.refuse h 0x29 .busy
  | _, _ => s.refuse h 0x29 .range

def execMarkerTest (h : Sender) (p : Params MarkerTestArgs) (s : State) :
    Host.Outcome State Fault Refusal :=
  .next (s.command h 0x29 p (markerTest h))

/-! ## MARKER_CANCEL (R160) -/

/-- A MARK record of outcome CANCELLED for each entry, from head to tail (R160). -/
def cancelAll (r : Rail) : List MarkerEntry → State → State
  | [], s => s
  | e :: rest, s => cancelAll r rest (s.emit (s.markRecord r .cancelled e 0))

/-- What MARKER_CANCEL does to the engine (R160). -/
def State.cancelEngine (s : State) (r : Rail) : State :=
  match (s.marker.engines.get r).state with
  | .painting .pullin m | .painting .hold m | .painting .gap m => s.afterDashes r m
  | .halted => s.enterIdle r
  | _ => s

def markerCancel (h : Sender) (b : Byte) (s : State) : State :=
  match railOf b with
  | none => s.refuse h 0x2A .range
  | some r =>
    let q := (s.marker.engines.get r).queue
    ((cancelAll r q (s.setQueue r [])).cancelEngine r).reply h 0x2A .ok (u8 q.length)

def execMarkerCancel (h : Sender) (p : Params Byte) (s : State) : Host.Outcome State Fault Refusal :=
  .next (s.command h 0x2A p (markerCancel h))

end Sys2Proof.Machine
end

