-- ==== Sys2Proof/Machine/Evaluate.lean ====
section
/-! DEFINITION. The Pattern Evaluator (chapter 8): term and pattern tests, pattern runs, findings with their
marker offer and alert update, gap runs, and the flush at the end of a drain. -/
namespace Sys2Proof.Machine

/-! ## Reading the tail (R93, R128) -/

/-- An empty record with an empty muted mask and a clear drain flag (R93). -/
def ClosedCell.emptyAt (c : Int) : ClosedCell :=
  { index := c, groups := .empty, muted := 0, drain := false }

/-- The closed record of a cell; a cell below the run's opening index, or not in the tail, counts as empty
(R93, R128). -/
def Window.closedAt (w : Window) (c : Int) : ClosedCell :=
  if c < w.opening then .emptyAt c
  else (w.tail.find? (fun x => decide (x.index = c))).getD (.emptyAt c)

/-! ## Terms and patterns (R129, R130) -/

/-- Whether a group record satisfies a term (R129). -/
def Term.satisfied (t : Term) (g : GroupRecord) : Bool :=
  match t.kind with
  | .flaw => decide (t.minCount ≤ g.hits) && (g.bands &&& t.bands != 0) && decide (t.minAmplitude ≤ g.peak)
  | .drop => decide (t.minCount ≤ g.drops)

/-- Whether a pattern matches cell `c` (R130). -/
def Pattern.matchesAt (p : Pattern) (w : Window) (c : Int) : Bool :=
  p.terms.all fun t =>
    (List.range (2 * p.spread + 1)).any fun i => t.satisfied (w.closedAt (c - p.spread + i)).groups[t.group]

/-! ## Pattern runs (R131) -/

/-- The hits of the eight groups of a cell (R131). -/
def hitSum (gs : CellGroups) : Nat := (eight.map fun g => gs[g].hits).sum

/-- The groups with a hit (R131). -/
def hitGroups (gs : CellGroups) : Byte := maskOf fun g => decide (0 < gs[g].hits)

/-- The greatest peak of the eight groups (R131). -/
def topPeak (gs : CellGroups) : Nat := (eight.map fun g => gs[g].peak).foldl max 0

/-- The bands of the group records that hold the greatest peak (R131). -/
def topBands (gs : CellGroups) : Byte :=
  eight.foldl (fun m g => if gs[g].peak = topPeak gs then m ||| gs[g].bands else m) 0

/-- The highest band of a mask; 0 for an empty one. -/
def highestBand (m : Byte) : Nat := eight.foldl (fun b g => if m.getLsbD g.val then g.val else b) 0

/-- A matching cell is taken into a run: the run opens at length 0, the length adds 1, and the cell's own
record is taken in (R131 steps 1 to 3). -/
def PatternRun.take (run : PatternRun) (c : Int) (gs : CellGroups) : PatternRun :=
  let run := if run.length = 0 then { PatternRun.closed with start := c } else run
  { run with
    length := run.length + 1
    groupsSeen := run.groupsSeen ||| hitGroups gs
    hitTotal := satAdd16 run.hitTotal (hitSum gs)
    peak := max run.peak (topPeak gs)
    peakBand := if run.peak < topPeak gs then highestBand (topBands gs) else run.peakBand }

/-- Replaces one pattern's run on one rail. -/
def State.setPatternRun (s : State) (r : Rail) (p : Fin 32) (run : PatternRun) : State :=
  s.setEval { s.eval with runs := s.eval.runs.set r ((s.eval.runs.get r).set p run) }

/-! ## Findings (R136, R137) -/

/-- The start tick of a run, saturated (R136). -/
def State.startTick (s : State) (c : Int) : Int := satTick (c * s.params.cellTicks)

/-- The disposition of a finding's marker offer; NONE without a spray pattern (R136). -/
def State.disposition (s : State) (r : Rail) (spray : Option (Fin 7)) (tick : Int) : Disposition :=
  match spray with
  | none => .none
  | some n => s.offerVerdict r tick n

/-- The marker offer of a finding (R136, R147). -/
def State.markerOffer (s : State) (r : Rail) (spray : Option (Fin 7)) (cls : Fin 16) (tick : Int) : State :=
  match spray with
  | none => s
  | some n => s.takeOffer r tick n cls

/-- An urgent finding updates the alert record (R137). -/
def State.updateAlert (s : State) (urgent : Bool) (r : Rail) (cls : Fin 16) (tick : Int) : State :=
  if urgent then
    s.setEval { s.eval with alert := { start := tick, rail := r, cls := cls, count := s.eval.alert.count + 1 } }
  else s

/-- The FINDING of a run (R136). -/
def State.findingOf (s : State) (r : Rail) (p : Fin 32) (run : PatternRun) (capped : Bool) : Finding where
  runNumber := s.run.runNumber
  rail := r
  pattern := p
  cls := s.eval.patterns[p].cls
  urgent := s.eval.patterns[p].urgent
  capped := capped
  startCell := run.start
  length := run.length
  startTick := s.startTick run.start
  groupsSeen := run.groupsSeen
  peak := run.peak
  peakBand := run.peakBand
  hitTotal := run.hitTotal
  disposition := s.disposition r s.eval.patterns[p].spray (s.startTick run.start)
  spray := s.eval.patterns[p].spray
  cp := s.odo.cp
  generation := s.run.generation

/-- A FINDING is issued: marker offer, alert update, record (R136, R137); then the due test of the rail, which R149 asks
for where the head has changed and the model makes after every FINDING, whatever its disposition (DEDUCED,
notes/assumptions/8.md). -/
def State.issueFinding (s : State) (r : Rail) (p : Fin 32) (run : PatternRun) (capped : Bool) : State :=
  let f := s.findingOf r p run capped
  ((((s.markerOffer r f.spray f.cls f.startTick).updateAlert f.urgent r f.cls f.startTick).emit
    (.finding f)).dueTest r)

/-- A run ends: a FINDING if it is long enough, and the length becomes 0 (R132, R134). -/
def State.endRunOf (s : State) (r : Rail) (p : Fin 32) : State :=
  let run := (s.eval.runs.get r)[p]
  let s' := s.setPatternRun r p .closed
  if run.length ≠ 0 ∧ s.eval.patterns[p].minRun ≤ run.length then s'.issueFinding r p run false else s'

/-- One pattern's part of an evaluation (R131–R133). -/
def State.evalPattern (s : State) (r : Rail) (c : Int) (p : Fin 32) : State :=
  if s.eval.patterns[p].enabled && holdsRail s.eval.patterns[p].rails r then
    if s.eval.patterns[p].matchesAt (s.windows.get r) c then
      let run := ((s.eval.runs.get r)[p]).take c ((s.windows.get r).closedAt c).groups
      if run.length = 64 then (s.setPatternRun r p .closed).issueFinding r p run true
      else s.setPatternRun r p run
    else s.endRunOf r p
  else s

/-! ## Gaps (R139–R141) -/

/-- Replaces one rail's gap run. -/
def State.setGapRun (s : State) (r : Rail) (g : GapRun) : State :=
  s.setEval { s.eval with gaps := s.eval.gaps.set r g }

/-- The groups covered in a cell (R139). -/
def coveredGroups (gs : CellGroups) : Byte := maskOf fun g => gs[g].covered

/-- The missing groups of a cell (R139). -/
def missingGroups (required : Byte) (x : ClosedCell) : Byte :=
  required &&& ~~~(coveredGroups x.groups) &&& ~~~x.muted

/-- A GAP record is issued from a run (R141). -/
def State.issueGap (s : State) (r : Rail) (g : GapRun) (capped : Bool) : State :=
  s.emit (.gap {
    runNumber := s.run.runNumber, rail := r, capped := capped, startCell := g.start, length := g.length,
    missing := g.missing, cp := s.odo.cp })

/-- A gap run ends: a GAP if it is long enough, and the length becomes 0 (R139, R140). -/
def State.endGap (s : State) (r : Rail) : State :=
  let g := s.eval.gaps.get r
  let s' := s.setGapRun r { g with length := 0 }
  if g.length ≠ 0 ∧ s.params.gapMin ≤ g.length then s'.issueGap r g false else s'

/-- The gap run with one more cell whose missing groups are not empty (R139). -/
def GapRun.extend (g : GapRun) (c : Int) (missing : Byte) : GapRun :=
  if g.length = 0 then { length := 1, start := c, missing := missing }
  else { g with length := g.length + 1, missing := g.missing ||| missing }

/-- The gap judgement of cell `c` (R139). -/
def State.evalGap (s : State) (r : Rail) (c : Int) : State :=
  let x := (s.windows.get r).closedAt c
  let missing := missingGroups (s.params.required.get r) x
  if x.drain || missing == 0 then s.endGap r
  else
    let g := (s.eval.gaps.get r).extend c missing
    if g.length = 1024 then (s.setGapRun r { g with length := 0 }).issueGap r g true
    else s.setGapRun r g

/-! ## Evaluation and flush (R128, R134) -/

/-- The pattern numbers in ascending order. -/
def patternNumbers : List (Fin 32) := List.finRange 32

/-- The evaluation of cell `c` (R128). -/
def State.evaluate (s : State) (r : Rail) (c : Int) : State :=
  (patternNumbers.foldl (fun s p => s.evalPattern r c p) s).evalGap r c

/-- The flush of a rail at the end of its drain: pattern runs in ascending order, then the gap run (R134,
R140). -/
def State.flush (s : State) (r : Rail) : State :=
  (patternNumbers.foldl (fun s p => s.endRunOf r p) s).endGap r

end Sys2Proof.Machine
end

