-- ==== Sys2Proof/Machine/Lanes.lean ====
section
/-! DEFINITION. The lane controllers (chapter 4): lane states and their EVENTs, the setup transfer, the
incomplete-order count, lane down, the sending of messages, READY, corrupt messages, and the coupling
monitor. Matching a REPORT is in Sys2Proof/Machine/Placement.lean. -/
namespace Sys2Proof.Machine

/-! ## Lane states (R56) -/

def LaneMessage.isSetup (m : LaneMessage) : Bool :=
  match m with
  | .setup .. => true
  | .fire .. => false

/-- SETUP messages queued and not yet sent are withdrawn (R59, R61). -/
def Lane.withdrawSetups (l : Lane) : Lane := { l with txQueue := l.txQueue.filter fun m => !m.isSetup }

/-- FIRE messages queued and not yet sent are withdrawn (R55). -/
def Lane.withdrawFires (l : Lane) : Lane := { l with txQueue := l.txQueue.filter LaneMessage.isSetup }

/-- A lane takes a state change of R56, with its LANE_STATE EVENT; `l` is the lane after the change. -/
def State.changeLane (s : State) (r : Rail) (l : Lane) (cause : LaneCause) : State :=
  (s.setLane r l).event (.laneState r l.state (s.lanes.get r).state l.setupNumber cause)

/-! ## Setup transfer (R57) -/

/-- The enabled probes of a lane, in ascending local number (R57). -/
def State.enabledProbes (s : State) (r : Rail) : List (Fin 16) :=
  localProbes.filter fun p => s.probes[probeNo r p].enabled

/-- The four gate windows of a probe, as a SETUP carries them (R57). -/
def Probe.gateWindows (p : Probe) : Vector GateWindow 4 :=
  Vector.ofFn fun g => { start := p.gates[g].windowStart, width := p.gates[g].windowWidth }

/-- The SETUP messages of a transfer; the last carries the final flag (R57). -/
def setupMessages (number : Byte) (probes : Vector Probe 32) (r : Rail) : List (Fin 16) → List LaneMessage
  | [] => []
  | p :: rest =>
    .setup number p.val rest.isEmpty probes[probeNo r p].gateWindows :: setupMessages number probes r rest

/-- The lane on entry to SETUP, with its messages queued (R57). -/
def State.setupLane (s : State) (r : Rail) : Lane :=
  let l := s.lanes.get r
  let number := l.setupNumber + 1
  { l with
    state := .setup, setupNumber := number, setupSent := 0, setupFinal := false, timer := 0,
    incomplete := 0, coupling := Vector.replicate 16 .fresh,
    txQueue := l.txQueue ++ setupMessages number s.probes r (s.enabledProbes r) }

/-- Entry to SETUP, from DOWN or from FAULT; a lane without an enabled probe goes on to OK (R57). -/
def State.enterSetup (s : State) (r : Rail) (cause : LaneCause) : State :=
  let s' := s.changeLane r (s.setupLane r) cause
  if (s.enabledProbes r).isEmpty then s'.changeLane r { s'.lanes.get r with state := .ok } .noProbes
  else s'

/-! ## Incomplete orders (R60) -/

/-- An order of the lane was released by timeout: the count rises to at most 3, and at 3 an OK lane enters
FAULT (R49, R60). -/
def State.orderTimedOut (s : State) (r : Rail) : State :=
  let l := s.lanes.get r
  let l' := { l with incomplete := min (l.incomplete + 1) 3 }
  if l'.incomplete = 3 ∧ l.state = .ok then
    s.changeLane r { l'.withdrawFires with state := .fault, timer := 0 } .incompleteOrders
  else s.setLane r l'

/-- An order of the lane was answered in full (R50, R60). -/
def State.orderAnswered (s : State) (r : Rail) : State :=
  s.setLane r { s.lanes.get r with incomplete := 0 }

/-! ## Lane down (R61) -/

/-- A lane that is not DOWN enters DOWN at drain completion; its timer stops at 0 and messages not yet sent
are withdrawn (R55, R61). The setup progress keeps its values (DESIGN CHOICE, notes/assumptions/40.md). -/
def State.laneDown (s : State) (r : Rail) : State :=
  let l := s.lanes.get r
  if l.state = .down then s
  else s.changeLane r { l with state := .down, timer := 0, txQueue := [] } .drainEnd

/-! ## Messages -/

/-- The SETUP message at the head of a lane's queue is sent whole; the progress counts it and records the
final one (R55, R57). Sent in SETUP only. -/
def setupMessageSent (r : Rail) (s : State) : State :=
  let l := s.lanes.get r
  match l.state, l.txQueue with
  | .setup, .setup number probe final windows :: rest =>
    s.setLane r { l with
      txQueue := rest, sent := (LaneMessage.setup number probe final windows).bytes,
      setupSent := l.setupSent + 1, setupFinal := l.setupFinal || final }
  | _, _ => s

def execSetupMessageSent (r : Rail) (s : State) : Host.Outcome State Fault Refusal :=
  .next (s.unlessHeld (setupMessageSent r))

/-- The FIRE message at the head of a lane's queue is sent whole. Sent in OK only (R55). -/
def fireMessageSent (r : Rail) (s : State) : State :=
  let l := s.lanes.get r
  match l.state, l.txQueue with
  | .ok, .fire tag mask :: rest =>
    s.setLane r { l with txQueue := rest, sent := (LaneMessage.fire tag mask).bytes }
  | _, _ => s

def execFireMessageSent (r : Rail) (s : State) : Host.Outcome State Fault Refusal :=
  .next (s.unlessHeld (fireMessageSent r))

/-- Whether a READY is taken (R58). -/
def Lane.takesReady (l : Lane) (number : Byte) : Bool :=
  decide (l.state = .setup) && l.setupFinal && l.setupNumber == number

/-- The lane on entry to OK: the timer stops at 0 and the incomplete-order count is 0 (R58, R60). -/
def Lane.ready (l : Lane) : Lane := { l with state := .ok, timer := 0, incomplete := 0 }

/-- A READY is taken into OK, or discarded as unexpected (R58). -/
def readyReceived (r : Rail) (number : Byte) (s : State) : State :=
  let l := s.lanes.get r
  if l.takesReady number then s.changeLane r l.ready .ready
  else s.setLane r { l with unexpected := satAdd16 l.unexpected 1 }

def execReady (r : Rail) (number : Byte) (s : State) : Host.Outcome State Fault Refusal :=
  .next (s.unlessHeld (readyReceived r number))

/-- A corrupt message is discarded and counted (R55). -/
def corruptMessage (r : Rail) (s : State) : State :=
  s.setLane r { s.lanes.get r with corrupt := satAdd16 (s.lanes.get r).corrupt 1 }

def execCorruptMessage (r : Rail) (s : State) : Host.Outcome State Fault Refusal :=
  .next (s.unlessHeld (corruptMessage r))

/-! ## The lane timer (R59) -/

/-- The wait in SETUP ends: FAULT, the transfer abandoned, the timer from 0 (R59). Without effect outside
SETUP. The setup progress keeps its values (DESIGN CHOICE, notes/assumptions/40.md). -/
def setupTimeout (r : Rail) (s : State) : State :=
  let l := s.lanes.get r
  match l.state with
  | .setup => s.changeLane r { l.withdrawSetups with state := .fault, timer := 0 } .setupTimeout
  | _ => s

def execSetupTimeout (r : Rail) (s : State) : Host.Outcome State Fault Refusal :=
  .next (s.unlessHeld (setupTimeout r))

/-- The wait in FAULT ends: SETUP again (R59). Without effect outside FAULT. -/
def retry (r : Rail) (s : State) : State :=
  match (s.lanes.get r).state with
  | .fault => s.enterSetup r .retry
  | _ => s

def execRetry (r : Rail) (s : State) : Host.Outcome State Fault Refusal :=
  .next (s.unlessHeld (retry r))

/-! ## Coupling monitor (R66–R69) -/

/-- The gates of a probe with the role COUPLING. -/
def Probe.couplingGates (p : Probe) : List (Fin 4) := fourGates.filter fun g => p.gates[g].role = .coupling

/-- Whether a COUPLING gate's result is present (R64). -/
def gatePresent (g : Gate) (x : GateResult) : Bool :=
  decide (x.amplitude.toNat ≠ 0) && decide (g.threshold ≤ x.amplitude.toNat)

/-- Whether the observation of a report is present: every COUPLING gate is (R66). -/
def Probe.observes (p : Probe) (xs : Vector GateResult 4) : Bool :=
  p.couplingGates.all fun g => gatePresent p.gates[g] xs[g]

/-- The counts after an observation (R66). -/
def Coupling.count (c : Coupling) (present : Bool) : Coupling :=
  if present then { c with present := min (c.present + 1) 255, absent := 0 }
  else { c with absent := min (c.absent + 1) 255, present := 0 }

/-- The state the counts ask for (R67). -/
def Coupling.judged (c : Coupling) (lose gain : Nat) : CouplingState :=
  if lose ≤ c.absent then .lost else if gain ≤ c.present then .coupled else c.state

/-- The state taken, with both counts at 0 if it changes (R67). -/
def Coupling.become (c : Coupling) (new : CouplingState) : Coupling :=
  if new = c.state then c else { state := new, absent := 0, present := 0 }

/-- A probe's coupling record after a taken report (R66, R67); without a COUPLING gate an UNKNOWN probe is
COUPLED (R68). -/
def Coupling.after (c : Coupling) (p : Probe) (xs : Vector GateResult 4) (lose gain : Nat) : Coupling :=
  if p.couplingGates.isEmpty then (if c.state = .unknown then c.become .coupled else c)
  else
    let c' := c.count (p.observes xs)
    c'.become (c'.judged lose gain)

/-- Step 1 of R63: the coupling observation of a taken report, with a COUPLING EVENT if the state changes
(R66–R69). -/
def State.observeCoupling (s : State) (r : Rail) (p : Fin 16) (xs : Vector GateResult 4)
    (kind : CycleKind) : State :=
  let l := s.lanes.get r
  let c' := l.coupling[p].after s.probes[probeNo r p] xs s.params.coupleLose s.params.coupleGain
  (s.setLane r { l with coupling := l.coupling.set p c' }).eventIf (c'.state != l.coupling[p].state)
    (.coupling (probeNo r p).val c'.state l.coupling[p].state kind)

end Sys2Proof.Machine
end

