-- ==== Sys2Proof/Machine/Firing.lean ====
section
/-! DEFINITION. The Firing Sequencer (chapter 3): beginning a step and a cycle, the distance trigger, the
keep-alive trigger, the end of a step, and the release of a firing record by timeout. -/
namespace Sys2Proof.Machine

/-! ## Steps (R42, R48) -/

/-- The local probes of a lane that a step fires: enabled, and members of its probe set (R42). -/
def State.laneSet (s : State) (k : Fin 16) (r : Rail) : Word16 :=
  localProbes.foldl (fun m p =>
    if s.probes[probeNo r p].enabled && s.seq.steps[k].probeSet.getLsbD (probeNo r p).val
    then m ||| bit16 p.val else m) 0

/-- The ring slot of a tag (R48). -/
def ringSlot (tag : Byte) : Fin 64 := ⟨tag.toNat % 64, Nat.mod_lt _ (by decide)⟩

/-- The record of a fire order issued now (R48, R49). -/
def State.newRecord (s : State) (k : Fin 16) (kind : CycleKind) (r : Rail) (mask : Word16) :
    FiringRecord where
  outstanding := true
  tag := s.seq.tagCounter
  lane := r
  step := k.val
  kind := kind
  fp := s.odo.cp
  expected := mask
  received := 0
  issued := s.now10
  deadline := s.now10 + periods10 s.seq.steps[k].listen + periods10 s.params.reportWaitUs

/-- Whether a lane's part of a step is fired: its set is not empty, the lane is OK and the slot of the
candidate tag is FREE (R42). -/
def State.fires (s : State) (k : Fin 16) (r : Rail) : Bool :=
  s.laneSet k r != 0 && decide ((s.lanes.get r).state = .ok)
    && !s.seq.ring[ringSlot s.seq.tagCounter].outstanding

/-- The fire order is handed to the lane and its record allocated (R42, R48). -/
def State.issueOrder (s : State) (k : Fin 16) (r : Rail) : State :=
  let l := s.lanes.get r
  (s.setSeq { s.seq with
      ring := s.seq.ring.set (ringSlot s.seq.tagCounter) (s.newRecord k s.seq.kind r (s.laneSet k r))
      tagCounter := s.seq.tagCounter + 1 }).setLane r
    { l with txQueue := l.txQueue ++ [.fire s.seq.tagCounter (s.laneSet k r)] }

/-- One lane's part of a step (R42). -/
def State.lanePart (s : State) (k : Fin 16) (r : Rail) : State :=
  if s.fires k r then s.issueOrder k r else s

/-- Step `k` begins: lane A's part, lane B's part, then the step timer (R42). -/
def State.beginStep (s : State) (k : Fin 16) : State :=
  let s' := (s.lanePart k .a).lanePart k .b
  s'.setSeq { s'.seq with cycle := .stepping k.val, stepTimer := periods10 s.seq.steps[k].listen }

/-- A cycle of a kind begins with step 0, if there is a step (R41). -/
def State.beginCycle (s : State) (kind : CycleKind) : State :=
  if s.params.stepCount = 0 then s
  else (s.setSeq { s.seq with kind := kind, overrun := false, stopping := false }).beginStep 0

/-! ## The distance trigger (R39, R44) -/

/-- Whether a distance trigger occurs (R39). -/
def State.distanceDue (s : State) : Bool :=
  s.distanceAllowed && decide (s.params.fireSpacing ≤ (s.odo.cp - s.seq.lastTrigger).natAbs)

/-- A trigger while one is pending is lost: the overrun mark, and OVERSPEED with an EVENT if it is clear
(R44, R45). -/
def State.overrunTrigger (s : State) (k : Nat) : State :=
  (s.setSeq { s.seq with overrun := true, overspeed := true }).eventIf (!s.seq.overspeed)
    (.overspeed true s.odo.speed k)

/-- A distance trigger is taken (R39, R41, R44). -/
def State.distanceTrigger (s : State) : State :=
  let s' := s.setSeq { s.seq with lastTrigger := s.odo.cp }
  match s.seq.cycle with
  | .idle => s'.beginCycle .distance
  | .stepping k =>
    if s.seq.pendingTrigger then s'.overrunTrigger k
    else s'.setSeq { s'.seq with pendingTrigger := true }

/-- The test of the distance trigger at a change of CP (R39). -/
def State.testDistance (s : State) : State := if s.distanceDue then s.distanceTrigger else s

/-! ## The keep-alive trigger (R40, R44) -/

/-- The keep-alive timer reaches KEEPALIVE_MS: it restarts at 0, and a KEEPALIVE cycle begins from IDLE
(R40, R41, R44). Without effect while the timer does not run. -/
def keepaliveTrigger (s : State) : State :=
  if s.keepAliveRuns then
    let s' := s.setSeq { s.seq with keepAliveTimer := 0 }
    match s.seq.cycle with
    | .idle => s'.beginCycle .keepalive
    | .stepping _ => s'
  else s

def execKeepaliveTrigger (s : State) : Host.Outcome State Fault Refusal :=
  .next (s.unlessHeld keepaliveTrigger)

/-! ## The end of a step (R43) -/

/-- OVERSPEED is cleared at the end of a cycle without an overrun, with an EVENT (R43, R45). -/
def State.settleOverspeed (s : State) : State :=
  if s.seq.overspeed && !s.seq.overrun then
    (s.setSeq { s.seq with overspeed := false }).event (.overspeed false 0 0)
  else s

/-- The sequencer in IDLE with no trigger pending. The two marks keep their values until a cycle begins
(R41; notes/assumptions/13.md), and so does the cycle kind, which READ_STATUS goes on showing: the manual gives
no kind in IDLE (DESIGN CHOICE, notes/assumptions/33.md). -/
def State.cycleIdle (s : State) : State :=
  s.setSeq { s.seq with cycle := .idle, stepTimer := 0, pendingTrigger := false }

/-- The cycle ends; a pending trigger starts a new one if the conditions hold (R43). -/
def State.endCycle (s : State) : State :=
  let s' := s.settleOverspeed
  let idle := s'.cycleIdle
  if s'.seq.pendingTrigger && s'.distanceAllowed then idle.beginCycle .distance else idle

/-- The number of the step after `k`. -/
def nextStep (k : Nat) : Fin 16 := ⟨(k + 1) % 16, Nat.mod_lt _ (by decide)⟩

/-- The step timer expires: the next step begins or the cycle ends (R43). Without effect in IDLE. -/
def stepTimerExpiry (s : State) : State :=
  match s.seq.cycle with
  | .idle => s
  | .stepping k =>
    if !s.seq.stopping && decide (k + 1 < s.params.stepCount) then s.beginStep (nextStep k) else s.endCycle

def execStepTimerExpiry (s : State) : Host.Outcome State Fault Refusal :=
  .next (s.unlessHeld stepTimerExpiry)

/-! ## Firing records (R48–R50) -/

/-- A record becomes FREE; its other fields keep their values (R48). -/
def State.freeSlot (s : State) (i : Fin 64) : State :=
  s.setSeq { s.seq with ring := s.seq.ring.set i { s.seq.ring[i] with outstanding := false } }

/-- Whether a DISTANCE record is outstanding (R30). -/
def Sequencer.distanceOutstanding (q : Sequencer) : Bool :=
  q.ring.toList.any fun x => x.outstanding && decide (x.kind = .distance)

/-- Whether the drain is started (R30). -/
def State.drainStarts (s : State) : Bool :=
  decide (s.run.state = .draining) && !s.seq.distanceOutstanding

/-- The Run Controller judges whether the drain can start; if so it is the next event, before any command that
waits (R30; notes/assumptions/32.md). -/
def State.judgeDrain (s : State) : State := if s.drainStarts then s.putFirst .drain else s

/-- The release of a record of a kind: the drain is judged at the release of a DISTANCE record (R30). -/
def State.judgeRelease (s : State) (kind : CycleKind) : State :=
  match kind with
  | .distance => s.judgeDrain
  | .keepalive => s

/-- The record of a slot reaches its deadline: it becomes FREE, its lane is told of an incomplete order, and for
a DISTANCE record the drain is judged (R30, R49). Without effect on a FREE slot. -/
def firingRecordTimeout (i : Fin 64) (s : State) : State :=
  if s.seq.ring[i].outstanding then
    ((s.freeSlot i).orderTimedOut s.seq.ring[i].lane).judgeRelease s.seq.ring[i].kind
  else s

def execFiringRecordTimeout (i : Fin 64) (s : State) : Host.Outcome State Fault Refusal :=
  .next (s.unlessHeld (firingRecordTimeout i))

end Sys2Proof.Machine
end

