-- ==== Sys2Proof/Machine/Windows.lean ====
section
/-! DEFINITION. The Cell Windows (chapter 6): the open records as a canonical list, closing a cell, the
close line, the judging and entering of placed items, run start, the drain's closes, and READ_CELL. -/
namespace Sys2Proof.Machine

/-! ## Records of the open cells (R89, R90) -/

/-- The ring slot of a cell: its index mod 1024, non-negative (R89). -/
def slotOf (c : Int) : Nat := (c % 1024).toNat

/-- Whether a cell is open: K to K + 1023 (R89). -/
def Window.isOpen (w : Window) (c : Int) : Bool := decide (w.k ≤ c) && decide (c ≤ w.k + 1023)

/-- The groups of a cell in a list of records: what an unlisted cell reads as is the empty record. -/
def groupsAt (cells : List CellRecord) (c : Int) : CellGroups :=
  match cells.find? (fun x => decide (x.index = c)) with
  | some x => x.groups
  | none => .empty

/-- A list of records with the groups of cell `c` replaced: ascending, and no empty record listed. -/
def putGroups (c : Int) (g : CellGroups) : List CellRecord → List CellRecord
  | [] => if g = .empty then [] else [{ index := c, groups := g }]
  | x :: xs =>
    if c < x.index then
      if g = .empty then x :: xs else { index := c, groups := g } :: x :: xs
    else if c = x.index then
      if g = .empty then xs else { index := c, groups := g } :: xs
    else x :: putGroups c g xs

/-- The groups of an open cell. -/
def Window.groups (w : Window) (c : Int) : CellGroups := groupsAt w.cells c

/-- Replaces the groups of an open cell. -/
def Window.put (w : Window) (c : Int) (g : CellGroups) : Window := { w with cells := putGroups c g w.cells }

/-- The canonical form of the open records: strictly rising indices, all open, none empty. -/
def Window.wf (w : Window) : Bool :=
  decide (w.cells.Pairwise fun x y => x.index < y.index)
    && w.cells.all fun x => w.isOpen x.index && decide (x.groups ≠ .empty)

/-! ## Closing a cell (R92, R93) -/

/-- The tail with a closed record appended; of eight the oldest leaves (R92 step 3). -/
def appendTail (tail : List ClosedCell) (x : ClosedCell) : List ClosedCell :=
  let t := tail ++ [x]
  if 7 < t.length then t.drop 1 else t

/-- The closed record of cell K (R92 steps 1 and 2). -/
def State.closedRecord (s : State) (r : Rail) (drain : Bool) : ClosedCell :=
  let w := s.windows.get r
  { index := w.k, groups := w.groups w.k, muted := s.zones.mutedMask r s.params.cellTicks w.k,
    drain := drain && decide (s.run.endK.get r ≤ w.k) }

/-- The window after its cell K has closed (R92 steps 3 and 4). -/
def State.closedWindow (s : State) (r : Rail) (drain : Bool) : Window :=
  let w := s.windows.get r
  { w.put w.k .empty with k := w.k + 1, tail := appendTail w.tail (s.closedRecord r drain) }

/-- Cell K of a rail closes (R92): the window moves up, zones are tested for expiry (R116), and cell K − 3
is evaluated if it was closed in this run (R93). -/
def State.closeCell (s : State) (r : Rail) (drain : Bool) : State :=
  let j := (s.windows.get r).k
  let s' := (s.setWindow r (s.closedWindow r drain)).expireZones
  if (s.windows.get r).opening ≤ j - 3 then s'.evaluate r (j - 3) else s'

/-- `n` cells close, one after another. -/
def closeCells (r : Rail) (drain : Bool) : Nat → State → State
  | 0, s => s
  | n + 1, s => closeCells r drain n (s.closeCell r drain)

/-- The computed close index of a rail (R91). -/
def State.computedK (s : State) (r : Rail) : Int :=
  cellOf (s.odo.cp + (s.run.reach.get r).least - s.params.closeMargin) s.params.cellTicks

/-- At a change of CP the cells behind the close line close (R91). -/
def State.followCloseLine (s : State) (r : Rail) : State :=
  if s.run.state = .stopped then s
  else closeCells r false (s.computedK r - (s.windows.get r).k).toNat s

/-! ## Entering placed items (R95–R99) -/

/-- The cases of a hit (R95). -/
inductive HitCase where
  | retrace
  | late
  | early
  | muted
  | entered
  deriving DecidableEq, Repr

/-- The first case of R95 that applies. -/
def State.hitCase (s : State) (r : Rail) (g : Fin 8) (cell x : Int) : HitCase :=
  let w := s.windows.get r
  if cell < w.k then (if s.odo.retrace then .retrace else .late)
  else if w.k + 1023 < cell then .early
  else if s.mutesHit r g x then .muted
  else .entered

/-- A group record with one more FLAW hit (R96). -/
def GroupRecord.addFlaw (g : GroupRecord) (band amplitude : Nat) : GroupRecord :=
  { g with hits := min (g.hits + 1) 15, bands := g.bands ||| bit8 band, peak := max g.peak amplitude }

/-- A group record with one more DROP hit (R97). -/
def GroupRecord.addDrop (g : GroupRecord) : GroupRecord := { g with drops := min (g.drops + 1) 15 }

/-- A placed hit as handed to the window (R86). -/
structure PlacedHit where
  rail : Rail
  probe : Nat
  group : Fin 8
  gate : Fin 4
  kind : HitKind
  x : Int
  cell : Int
  depth : Nat
  band : Nat
  amplitude : Nat
  deriving DecidableEq, Repr

/-- The group record after an entered hit (R96, R97). -/
def PlacedHit.apply (h : PlacedHit) (g : GroupRecord) : GroupRecord :=
  match h.kind with
  | .flaw => g.addFlaw h.band h.amplitude
  | .drop => g.addDrop

/-- The HIT record of an entered hit (R96). -/
def PlacedHit.record (h : PlacedHit) (runNumber : Word16) : Record :=
  .hit { runNumber := runNumber, rail := h.rail, kind := h.kind, gate := h.gate, probe := h.probe,
         group := h.group, band := h.band, x := h.x, cell := h.cell, depth := h.depth,
         amplitude := h.amplitude }

/-- The window after an entered hit. -/
def Window.enter (w : Window) (h : PlacedHit) : Window :=
  w.put h.cell ((w.groups h.cell).set h.group (h.apply (w.groups h.cell)[h.group]))

/-- The window judges a placed hit and enters or discards it (R95–R97). -/
def State.enterHit (s : State) (h : PlacedHit) : State :=
  let w := s.windows.get h.rail
  match s.hitCase h.rail h.group h.cell h.x with
  | .retrace | .muted => s
  | .late => s.setWindow h.rail { w with late := satAdd16 w.late 1 }
  | .early => s.setWindow h.rail { w with early := satAdd16 w.early 1 }
  | .entered => (s.setWindow h.rail (w.enter h)).emit (h.record s.run.runNumber)

/-- A misplaced hit adds to its tally and to nothing else (R99). -/
def State.misplace (s : State) (r : Rail) : State :=
  let w := s.windows.get r
  s.setWindow r { w with misplaced := satAdd16 w.misplaced 1 }

/-- The window with a group covered in a cell (R98). -/
def Window.cover (w : Window) (cell : Int) (g : Fin 8) : Window :=
  w.put cell ((w.groups cell).set g { (w.groups cell)[g] with covered := true })

/-- A coverage reference sets the covered flag of an open cell, and is discarded elsewhere (R98). -/
def State.enterCoverage (s : State) (r : Rail) (g : Fin 8) (cell : Int) : State :=
  let w := s.windows.get r
  if w.isOpen cell then s.setWindow r (w.cover cell g) else s

/-! ## Run start and drain (R104, R105) -/

/-- The window of a new run (R104). -/
def Window.started (k : Int) : Window :=
  { k := k, opening := k, cells := [], tail := [], late := 0, early := 0, misplaced := 0 }

/-- The highest open cell with content, or K − 1 (R105 step 1). -/
def Window.highest (w : Window) : Int :=
  match w.cells.getLast? with
  | none => w.k - 1
  | some x => x.index

/-- The drain of one rail: the cells up to the highest with content as drain closes, three empty closes,
then the flush (R105). -/
def State.drainRail (s : State) (r : Rail) : State :=
  let w := s.windows.get r
  (closeCells r false 3 (closeCells r true (w.highest + 1 - w.k).toNat s)).flush r

/-! ## READ_CELL (R108) -/

/-- The four bytes of a group record in the REPLY (note under 11.6.4). -/
def GroupRecord.bytes (g : GroupRecord) : List Byte :=
  u8 (16 * g.hits + g.drops) ++ [g.bands] ++ u8 g.peak ++ flag g.covered

/-- The eight group records in the REPLY. -/
def groupsBytes (gs : CellGroups) : List Byte := eight.flatMap fun g => GroupRecord.bytes gs[g]

def readCell (h : Sender) (a : ReadCellArgs) (s : State) : State :=
  match railOf a.rail with
  | none => s.refuse h 0x40 .range
  | some r =>
    let w := s.windows.get r
    let c := a.cell.toInt
    if w.isOpen c then s.reply h 0x40 .ok (i32 c ++ u8 0 ++ groupsBytes (w.groups c))
    else
      match w.tail.find? (fun x => decide (x.index = c)) with
      | some x => s.reply h 0x40 .ok (i32 c ++ u8 1 ++ groupsBytes x.groups ++ [x.muted] ++ flag x.drain)
      | none => s.refuse h 0x40 .notFound

def execReadCell (h : Sender) (p : Params ReadCellArgs) (s : State) : Host.Outcome State Fault Refusal :=
  .next (s.command h 0x40 p (readCell h))

end Sys2Proof.Machine
end

