-- ==== Sys2Proof/Machine/Odometry.lean ====
section
/-! DEFINITION. The Odometry Unit (chapter 1): ticks and illegal transitions, speed, standstill, the slip
window with failover, the lift input, and REBASE. -/
namespace Sys2Proof.Machine

/-! ## The quadrature state (R1, R2) -/

def Odometry.quadrature (o : Odometry) (e : Encoder) : Quadrature :=
  match e with
  | .primary => o.enc1
  | .secondary => o.enc2

def Odometry.setQuadrature (o : Odometry) (e : Encoder) (q : Quadrature) : Odometry :=
  match e with
  | .primary => { o with enc1 := q }
  | .secondary => { o with enc2 := q }

/-- An acceptance of a change on one channel: the level turns over and the run count is 0 (R1). -/
def InputFilter.turned (f : InputFilter) : InputFilter := { accepted := !f.accepted, run := 0 }

/-- Whether a tick of a sign from a pair of levels is the turn of channel A; else it is channel B's (table
of R2). -/
def turnsA (q : Quadrature) (sign : Direction) : Bool :=
  match sign with
  | .forward => q.a.accepted == q.b.accepted
  | .backward => q.a.accepted != q.b.accepted

/-- The quadrature state after a tick (R2). -/
def Quadrature.ticked (q : Quadrature) (sign : Direction) : Quadrature :=
  if turnsA q sign then { q with a := q.a.turned } else { q with b := q.b.turned }

/-- The quadrature state after an illegal transition (R3). -/
def Quadrature.bothTurned (q : Quadrature) : Quadrature := { a := q.a.turned, b := q.b.turned }

/-- A pin after an acceptance on its channel: at the level accepted; a channel that has not turned keeps its
pin. -/
def pinAfter (pin before after : Bool) : Bool := if before = after then pin else after

/-- The encoder pins after a quadrature state has gone from `q` to `q'`: a turned channel shows its level. -/
def Pins.showing (p : Pins) (e : Encoder) (q q' : Quadrature) : Pins :=
  match e with
  | .primary => { p with
      enc1A := pinAfter p.enc1A q.a.accepted q'.a.accepted
      enc1B := pinAfter p.enc1B q.b.accepted q'.b.accepted }
  | .secondary => { p with
      enc2A := pinAfter p.enc2A q.a.accepted q'.a.accepted
      enc2B := pinAfter p.enc2B q.b.accepted q'.b.accepted }

/-- An encoder's quadrature state is replaced, its inputs showing it. -/
def State.turn (s : State) (e : Encoder) (q : Quadrature) : State :=
  (s.setOdo (s.odo.setQuadrature e q)).setPins (s.pins.showing e (s.odo.quadrature e) q)

/-! ## Ticks (R5–R9) -/

/-- The value of a tick (R2). -/
def tickSign (d : Direction) : Int :=
  match d with
  | .forward => 1
  | .backward => -1

/-- A tick of an encoder counts in that encoder's window delta (R10). -/
def Odometry.addDelta (o : Odometry) (e : Encoder) (d : Direction) : Odometry :=
  match e with
  | .primary => { o with deltaP := o.deltaP + tickSign d }
  | .secondary => { o with deltaS := o.deltaS + tickSign d }

/-- CP after a source tick: moved by one unless at the end of its range (R5, R6). -/
def movedCp (cp : Int) (d : Direction) : Int := clampInt tickMin tickMax (cp + tickSign d)

/-- What a source tick does to the coordinate, direction, speed count and standstill timer (R5–R7). -/
def Odometry.sourceTick (o : Odometry) (d : Direction) : Odometry :=
  { o with
    cp := movedCp o.cp d, hw := max o.hw (movedCp o.cp d), direction := d,
    intervalCount := o.intervalCount + 1, standstillTimer := 0 }

/-- What the blocks do at a change of CP: the engines count it, the distance trigger is tested, the close
lines are followed and the due tests are made (R5, R39, R91, R149, R155). -/
def State.cpChanged (s : State) : State :=
  ((((((s.countDistance .a).countDistance .b).testDistance).followCloseLine .a).followCloseLine .b).dueTests)

/-- The conditions a source tick judges, in the order LIMIT, RETRACE, STANDSTILL (R6, R7, R9, R40). -/
def State.judgeTick (s : State) : State :=
  ((s.followLimit.followRetrace).clearStandstill).settleKeepAlive

/-- A tick of the source (R5). -/
def State.sourceTick (s : State) (d : Direction) : State :=
  let s' := (s.setOdo (s.odo.sourceTick d)).judgeTick
  if movedCp s.odo.cp d = s.odo.cp then s' else s'.cpChanged

/-- A decoded tick of an encoder (R2, R5). -/
def encoderTick (e : Encoder) (d : Direction) (s : State) : State :=
  let s' := s.turn e ((s.odo.quadrature e).ticked d)
  let t := s'.setOdo (s'.odo.addDelta e d)
  if e = s.odo.source then t.sourceTick d else t

def execEncoderTick (e : Encoder) (d : Direction) (s : State) : Host.Outcome State Fault Refusal :=
  .next (s.unlessHeld (encoderTick e d))

/-! ## Illegal transitions (R3) -/

/-- Whether an illegal transition of an encoder is counted (R3). -/
def State.countsErrors (s : State) (e : Encoder) : Bool :=
  match e with
  | .primary => true
  | .secondary => decide (s.params.secondaryMode ≠ .off)

/-- A counted illegal transition (R3). -/
def Odometry.addError (o : Odometry) (e : Encoder) : Odometry :=
  match e with
  | .primary => { o with errorTally := satAdd16 o.errorTally 1, windowErrP := satAdd16 o.windowErrP 1 }
  | .secondary => { o with errorTally := satAdd16 o.errorTally 1, windowErrS := satAdd16 o.windowErrS 1 }

/-- Both channels of an encoder accept a change on one edge (R3). -/
def illegalTransition (e : Encoder) (s : State) : State :=
  let s' := s.turn e (s.odo.quadrature e).bothTurned
  if s.countsErrors e then s'.setOdo (s'.odo.addError e) else s'

def execIllegalTransition (e : Encoder) (s : State) : Host.Outcome State Fault Refusal :=
  .next (s.unlessHeld (illegalTransition e))

/-! ## Standstill and speed (R8, R9) -/

/-- The standstill timer reaches STILL_MS while STANDSTILL is clear: STANDSTILL is set, speed becomes 0, and
the lead and the due tests follow (R9, R148, R149). Without effect while STANDSTILL is set. -/
def standstillSet (s : State) : State :=
  if s.odo.standstill then s
  else
    ((((s.setOdo { s.odo with
        standstill := true, speed := 0, standstillTimer := max s.odo.standstillTimer s.params.stillMs }).event
      (.standstill true)).settleKeepAlive).updateLead).dueTests

def execStandstillSet (s : State) : Host.Outcome State Fault Refusal := .next (s.unlessHeld standstillSet)

/-- The speed of an interval count (R8). -/
def speedOf (count : Nat) : Nat := min (count * 100) 65535

/-- A speed interval ends (R8, R148, R149). -/
def speedIntervalEnd (s : State) : State :=
  ((s.setOdo { s.odo with speed := speedOf s.odo.intervalCount, intervalCount := 0 }).updateLead).dueTests

def execSpeedIntervalEnd (s : State) : Host.Outcome State Fault Refusal :=
  .next (s.unlessHeld speedIntervalEnd)

/-! ## The slip window (R10–R12, R3) -/

/-- Whether the window in progress is a mismatch (R10). -/
def State.mismatched (s : State) : Bool :=
  decide (s.params.slipLimit < (s.odo.deltaP - s.odo.deltaS).natAbs)

/-- The streaks after a window is judged, with its deltas kept for later SLIP EVENTs (R10, R11). -/
def Odometry.judgeWindow (o : Odometry) (mismatched : Bool) : Odometry :=
  if mismatched then
    { o with mismatch := min (o.mismatch + 1) 3, agreement := 0, judgedP := o.deltaP, judgedS := o.deltaS }
  else
    { o with agreement := min (o.agreement + 1) 10, mismatch := 0, judgedP := o.deltaP, judgedS := o.deltaS }

/-- The source that a failover chooses (R12). -/
def Odometry.chosenSource (o : Odometry) : Encoder :=
  if o.deltaP.natAbs < o.deltaS.natAbs then .secondary
  else if o.deltaS.natAbs < o.deltaP.natAbs then .primary
  else o.source

/-- The source is chosen again when SLIP becomes set in FAILOVER (R12). -/
def State.failover (s : State) : State :=
  if s.params.secondaryMode = .failover then
    (s.setOdo { s.odo with source := s.odo.chosenSource }).eventIf
      (s.odo.chosenSource != s.odo.source) (.source s.odo.chosenSource .failover)
  else s

/-- SLIP is decided from the streaks (R11, R12). -/
def State.decideSlip (s : State) : State :=
  if s.odo.slip = false ∧ s.odo.mismatch = 3 then
    ((s.setOdo { s.odo with slip := true }).event (.slip true s.odo.deltaP s.odo.deltaS)).failover
  else if s.odo.slip = true ∧ s.odo.agreement = 10 then
    (s.setOdo { s.odo with slip := false }).event (.slip false s.odo.deltaP s.odo.deltaS)
  else s

/-- The judging of a window: not while SECONDARY_MODE is OFF (R10). -/
def State.judgeSlip (s : State) : State :=
  if s.params.secondaryMode = .off then s
  else (s.setOdo (s.odo.judgeWindow s.mismatched)).decideSlip

/-- The ENCODER_ERROR EVENT of a window with errors (R3). -/
def State.reportErrors (s : State) : State :=
  s.eventIf (s.odo.windowErrP != 0 || s.odo.windowErrS != 0)
    (.encoderError s.odo.windowErrP s.odo.windowErrS s.odo.errorTally)

/-- A slip window ends (R3, R10–R12). -/
def slipWindowEnd (s : State) : State :=
  let t := (s.judgeSlip).reportErrors
  t.setOdo { t.odo with deltaP := 0, deltaS := 0, windowErrP := 0, windowErrS := 0 }

def execSlipWindowEnd (s : State) : Host.Outcome State Fault Refusal := .next (s.unlessHeld slipWindowEnd)

/-- The streaks are set to 0; no window has then been judged (R11, R13, R18). -/
def Odometry.zeroStreaks (o : Odometry) : Odometry :=
  { o with mismatch := 0, agreement := 0, judgedP := 0, judgedS := 0 }

/-- SLIP is cleared by START_RUN or by a write of SECONDARY_MODE, the EVENT carrying the deltas of the last
window judged, and the streaks become 0 (R11, R13, R18). -/
def State.clearSlip (s : State) : State :=
  (s.setOdo { s.odo.zeroStreaks with slip := false }).eventIf s.odo.slip
    (.slip false s.odo.judgedP s.odo.judgedS)

/-- The source becomes PRIMARY, with a SOURCE EVENT if it was SECONDARY (R13, R18). -/
def State.returnSource (s : State) (cause : SourceCause) : State :=
  (s.setOdo { s.odo with source := .primary }).eventIf (s.odo.source != .primary) (.source .primary cause)

/-! ## Lift (R14) -/

/-- LIFTED takes a new level: LIFT EVENT, stopping mark when set, suspension and keep-alive judged again
(R14, R26, R40, R46). -/
def State.acceptLift (s : State) (level : Bool) : State :=
  let t := (s.setOdo { s.odo with lifted := level }).event (.lift level)
  let u := if level then t.markStopping else t
  (u.judgeSuspension .lift .lift).settleKeepAlive

/-- The lift input is sampled: two equal samples accept a new level (R14). -/
def liftSample (level : Bool) (s : State) : State :=
  let t := (s.setOdo { s.odo with liftSample := level, liftTimer := 0 }).setPins { s.pins with lift := level }
  if s.odo.liftSample = level ∧ s.odo.lifted ≠ level then t.acceptLift level else t

def execLiftSample (level : Bool) (s : State) : Host.Outcome State Fault Refusal :=
  .next (s.unlessHeld (liftSample level))

/-! ## REBASE (R15, R122) -/

/-- A zone moved by a REBASE. -/
def Zone.rebased (z : Zone) (delta : Int) : Zone :=
  { z with start := z.start - delta, stop := z.stop.map (· - delta) }

/-- A marker entry moved by a REBASE. -/
def MarkerEntry.rebased (e : MarkerEntry) (delta : Int) : MarkerEntry := { e with target := e.target - delta }

/-- Every rail coordinate REBASE moves (R15). -/
def State.coordinates (s : State) : List Int :=
  s.odo.cp :: s.odo.hw :: (s.zones.zones.flatMap fun z => z.start :: z.stop.toList)
    ++ (s.marker.engines.a.queue ++ s.marker.engines.b.queue).map MarkerEntry.target

/-- Whether every result of a REBASE lies in range (R15). -/
def State.canRebase (s : State) (delta : Int) : Bool := s.coordinates.all fun x => inTickRange (x - delta)

/-- Every value takes its result together (R15). -/
def State.moveBy (s : State) (delta : Int) : State :=
  let a := s.marker.engines.a
  let b := s.marker.engines.b
  ((s.setOdo { s.odo with cp := s.odo.cp - delta, hw := s.odo.hw - delta }).setZones
    { s.zones with zones := s.zones.zones.map fun z => z.rebased delta }).setMarker
    { s.marker with engines :=
        { a := { a with queue := a.queue.map fun e => e.rebased delta },
          b := { b with queue := b.queue.map fun e => e.rebased delta } } }

/-- REBASE judged and executed (R15). -/
def rebase (h : Sender) (delta : Word32) (s : State) : State :=
  if s.run.state ≠ .stopped then s.refuse h 0x30 .busy
  else if s.canRebase delta.toInt then
    let t := (s.moveBy delta.toInt).followLimit
    t.reply h 0x30 .ok (i32 t.odo.cp)
  else s.refuse h 0x30 .range

def execRebase (h : Sender) (p : Params Word32) (s : State) : Host.Outcome State Fault Refusal :=
  .next (s.command h 0x30 p (rebase h))

end Sys2Proof.Machine
end

