-- ==== Sys2Proof/Machine/Runs.lean ====
section
/-! DEFINITION. The Run Controller (chapter 2): the run-control commands, the drain, cold reset with RESET_N,
and warm reset by command or by link break. -/
namespace Sys2Proof.Machine

/-! ## The configuration checks and the reach values (R23, R25) -/

/-- Whether a probe is a member of an active step (R23, R25). -/
def State.inActiveStep (s : State) (p : Fin 32) : Bool :=
  (List.finRange 16).any fun k => decide (k.val < s.params.stepCount) && s.seq.steps[k].probeSet.getLsbD p.val

/-- Whether a probe counts for the reach values (R25). -/
def State.counted (s : State) (p : Fin 32) : Bool := s.probes[p].enabled && s.inActiveStep p

/-- Whether the band boundaries ascend (R23, R76). -/
def bandsAscend (bands : Vector Nat 7) : Bool :=
  decide (bands[(0 : Fin 7)] ≤ bands[(1 : Fin 7)]) && decide (bands[(1 : Fin 7)] ≤ bands[(2 : Fin 7)])
    && decide (bands[(2 : Fin 7)] ≤ bands[(3 : Fin 7)]) && decide (bands[(3 : Fin 7)] ≤ bands[(4 : Fin 7)])
    && decide (bands[(4 : Fin 7)] ≤ bands[(5 : Fin 7)]) && decide (bands[(5 : Fin 7)] ≤ bands[(6 : Fin 7)])

/-- The reason code of the first check that fails, or none (R23). -/
def State.configFault (s : State) : Option Nat :=
  if s.params.stepCount = 0 then some 1
  else if (List.finRange 32).all fun p => !s.counted p then some 2
  else if !bandsAscend s.params.bands then some 3
  else none

/-- The sums O + Q of a list of probes, the counted ones only (R25). -/
def State.sums (s : State) (ps : List (Fin 32)) : List Int :=
  (ps.filter s.counted).map fun p => s.probes[p].offset + s.probes[p].shift

/-- The reach of a list of sums, 0 and 0 for none (R25). -/
def reachOf (xs : List Int) : Reach :=
  match xs with
  | [] => .zero
  | x :: rest => { least := rest.foldl min x, greatest := rest.foldl max x }

/-- The probes of a rail (0.6). -/
def railProbes (r : Rail) : List (Fin 32) := localProbes.map (probeNo r)

/-- The reach values of a rail (R25). -/
def State.railReach (s : State) (r : Rail) : Reach := reachOf (s.sums (railProbes r))

/-- The reach values of both rails (R25). -/
def State.bothReach (s : State) : Reach := reachOf (s.sums (railProbes .a ++ railProbes .b))

/-! ## START_RUN (R24) -/

/-- What START_RUN does in the Odometry Unit (R18). -/
def State.startOdometry (s : State) : State :=
  let t := (((s.setOdo { s.odo with hw := s.odo.cp }).followRetrace).returnSource .startRun).clearSlip
  t.setOdo { t.odo with errorTally := 0 }

/-- What START_RUN does in the Run Controller before the RUN_STATE EVENT (R24, R25). -/
def State.startController (s : State) : State :=
  s.setRun { s.run with
    state := .running, runNumber := s.run.runNumber + 1,
    reach := { a := s.railReach .a, b := s.railReach .b }, reachAll := s.bothReach,
    endK := { a := 0, b := 0 } }

/-- The two windows of a new run, K from CP and the reach values just computed (R104). -/
def State.startWindows (s : State) : State :=
  s.setWindows { a := .started (s.computedK .a), b := .started (s.computedK .b) }

/-- Any SUSPEND zone is removed, then the zones behind the new close lines (R121). -/
def State.startZones (s : State) : State :=
  (s.setZones { s.zones with zones := s.zones.zones.filter Zone.isMute }).expireZones

/-- Every pattern run and both gap runs are closed without a record (R143, R144). -/
def Evaluator.closeRuns (e : Evaluator) : Evaluator :=
  { e with
    runs := { a := Vector.replicate 32 .closed, b := Vector.replicate 32 .closed }
    gaps := { a := { e.gaps.a with length := 0 }, b := { e.gaps.b with length := 0 } }
    alert := .none }

/-- The discard tallies of a lane are set to 0 (R71). -/
def Lane.zeroTallies (l : Lane) : Lane := { l with corrupt := 0, stale := 0, unexpected := 0, duplicate := 0 }

/-- A lane at START_RUN: its discard tallies are 0 and it enters SETUP (R57, R71). -/
def State.startLane (s : State) (r : Rail) : State :=
  (s.setLane r (s.lanes.get r).zeroTallies).enterSetup r .runStart

/-- The values START_RUN sets before the RUN_STATE EVENT (R24). -/
def State.startValues (s : State) : State :=
  let t := (((s.startOdometry).startController).startWindows).startZones
  (t.setSeq { t.seq with lastTrigger := t.odo.cp }).setEval t.eval.closeRuns

/-- A START_RUN whose checks pass: the effects together, and the EVENTs in the order of R24. -/
def State.startRun (s : State) (h : Sender) : State :=
  let t := s.startValues
  let u := (t.event (.runState .running s.run.state t.run.runNumber (.command h))).judgeSuspension
    .runStart .endRun
  ((u.startLane .a).startLane .b).settleKeepAlive

/-- START_RUN judged and executed (R22–R24). -/
def startRun (h : Sender) (_ : Unit) (s : State) : State :=
  if s.run.state ≠ .stopped then s.refuseRun h 0x01 .busy
  else
    match s.configFault with
    | some reason => s.reply h 0x01 .config (u8 reason)
    | none =>
      let t := s.startRun h
      t.reply h 0x01 .ok (u16 t.run.runNumber.toNat)

def execStartRun (h : Sender) (p : Params Unit) (s : State) : Host.Outcome State Fault Refusal :=
  .next (s.command h 0x01 p (startRun h))

/-! ## PAUSE_RUN, RESUME_RUN, END_RUN (R27–R29) -/

/-- The run state changes by a command, with its RUN_STATE EVENT (R21). -/
def State.changeRun (s : State) (h : Sender) (new : RunState) : State :=
  (s.setRun { s.run with state := new }).event
    (.runState new s.run.state s.run.runNumber (.command h))

/-- The REPLY OK of a taken run-control command, with the run state. -/
def State.replyRun (s : State) (h : Sender) (code : Byte) : State :=
  s.reply h code .ok (u8 s.run.state.code)

/-- PAUSE_RUN (R22, R27). -/
def pauseRun (h : Sender) (_ : Unit) (s : State) : State :=
  match s.run.state with
  | .running =>
    ((((s.markStopping).changeRun h .paused).judgeSuspension .pause .endRun).settleKeepAlive).replyRun h 0x02
  | _ => s.refuseRun h 0x02 .state

def execPauseRun (h : Sender) (p : Params Unit) (s : State) : Host.Outcome State Fault Refusal :=
  .next (s.command h 0x02 p (pauseRun h))

/-- RESUME_RUN (R22, R28). -/
def resumeRun (h : Sender) (_ : Unit) (s : State) : State :=
  match s.run.state with
  | .paused => (((s.changeRun h .running).judgeSuspension .lift .resume).settleKeepAlive).replyRun h 0x03
  | _ => s.refuseRun h 0x03 .state

def execResumeRun (h : Sender) (p : Params Unit) (s : State) : Host.Outcome State Fault Refusal :=
  .next (s.command h 0x03 p (resumeRun h))

/-- The K of each rail is recorded as its end-of-run close index (R29). -/
def State.recordEndK (s : State) : State :=
  s.setRun { s.run with endK := { a := s.windows.a.k, b := s.windows.b.k } }

/-- DRAINING is entered, with END_RUN's EVENTs and REPLY (R29). -/
def State.enterDraining (s : State) (h : Sender) : State :=
  (((((s.recordEndK).markStopping).changeRun h .draining).judgeSuspension .lift .endRun).settleKeepAlive).replyRun
    h 0x04

/-- END_RUN taken (R29): the drain is judged on entering DRAINING, and started before the next command (R30). -/
def State.endRunTaken (s : State) (h : Sender) : State := (s.enterDraining h).judgeDrain

/-- END_RUN (R22, R29). -/
def endRun (h : Sender) (_ : Unit) (s : State) : State :=
  match s.run.state with
  | .running | .paused => s.endRunTaken h
  | _ => s.refuseRun h 0x04 .state

def execEndRun (h : Sender) (p : Params Unit) (s : State) : Host.Outcome State Fault Refusal :=
  .next (s.command h 0x04 p (endRun h))

/-! ## The drain (R30, R105) -/

/-- Drain completion: both lanes DOWN and the run state STOPPED (R30, R61). -/
def State.drainEnd (s : State) : State :=
  let t := (s.laneDown .a).laneDown .b
  (t.setRun { t.run with state := .stopped }).event
    (.runState .stopped t.run.state t.run.runNumber .drainEnd)

/-- The drain (R30). Without effect unless it is to be started. -/
def drain (s : State) : State :=
  if s.drainStarts then ((s.drainRail .a).drainRail .b).drainEnd else s

def execDrain (s : State) : Host.Outcome State Fault Refusal := .next (s.unlessHeld drain)

/-! ## Cold reset (R31) -/

/-- RESET_N is asserted: the part is held and its valves are off (R31). The cold reset values are taken on
release. -/
def resetNAsserted (s : State) : State :=
  let t := s.setMarker { s.marker with engines :=
    { a := { s.marker.engines.a with valves := .off }, b := { s.marker.engines.b with valves := .off } } }
  { t with held := true }

def execResetNAsserted (s : State) : Host.Outcome State Fault Refusal := .next (resetNAsserted s)

/-- RESET_N is released: every block takes its cold reset values (R19, R31). -/
def execResetRelease (levels : InputLevels) (s : State) : Host.Outcome State Fault Refusal :=
  .next (State.cold levels s.freeCtr s.pending)

/-! ## Warm reset (R32) -/

/-- The Run Controller at a warm reset (R32). -/
def RunControl.warm (x : RunControl) : RunControl :=
  { x with state := .stopped, suspension := false, endK := { a := 0, b := 0 } }

/-- The Firing Sequencer at a warm reset (R54). The cycle kind keeps its value (DESIGN CHOICE,
notes/assumptions/33.md). -/
def Sequencer.warm (q : Sequencer) : Sequencer :=
  { q with
    keepAliveTimer := 0, cycle := .idle, overrun := false, stopping := false, stepTimer := 0,
    pendingTrigger := false, overspeed := false,
    ring := Vector.ofFn fun i => { q.ring[i] with outstanding := false } }

/-- A lane controller at a warm reset (R72). -/
def Lane.warm (l : Lane) : Lane :=
  { l with
    state := .down, setupSent := 0, setupFinal := false, timer := 0, incomplete := 0,
    coupling := Vector.replicate 16 .fresh, corrupt := 0, stale := 0, unexpected := 0, duplicate := 0,
    txQueue := [] }

/-- The Marker Controller at a warm reset (R164). -/
def Marker.warm (m : Marker) : Marker := { m with engines := { a := .cold, b := .cold } }

/-- A report lane emptied, its tallies and loss CPs 0; the stage, the pages and the subscription are kept
(R171, R177). -/
def ReportLane.warm (l : ReportLane) : ReportLane :=
  { l with records := [], shed := 0, lost := 0, firstLoss := 0, lastLoss := 0 }

/-- Whether a warm reset comes of a link break. -/
def ResetCause.isBreak (c : ResetCause) : Bool :=
  match c with
  | .command _ => false
  | .linkBreak => true

/-- The Link Controller at a warm reset, before the WARM_RESET EVENTs (R177). -/
def LinkState.warm (l : LinkState) (cause : ResetCause) : LinkState :=
  { l with
    intake := []
    receiver := if cause.isBreak then .hunting else l.receiver
    lanes := { n1 := l.lanes.n1.warm, n2 := l.lanes.n2.warm, n3 := l.lanes.n3.warm }
    dominantCount := 0
    recovery := cause.isBreak }

/-- A record for every lane, whatever the subscriptions (R172). -/
def LinkState.sendAll (l : LinkState) (cp : Int) (r : Record) : LinkState :=
  ((l.sendTo .n1 cp r).sendTo .n2 cp r).sendTo .n3 cp r

/-- The state of each block at a warm reset, before the WARM_RESET EVENTs (R32). -/
def State.warmValues (s : State) (cause : ResetCause) : State :=
  { s with
    run := s.run.warm, seq := s.seq.warm, lanes := { a := s.lanes.a.warm, b := s.lanes.b.warm },
    windows := { a := .cold, b := .cold }, zones := { s.zones with zones := [] },
    eval := s.eval.closeRuns, marker := s.marker.warm, link := s.link.warm cause }

/-- A warm reset with one WARM_RESET EVENT on each report lane (R32). -/
def State.warmReset (s : State) (cause : ResetCause) : State :=
  let t := s.warmValues cause
  t.setLink (t.link.sendAll s.odo.cp
    (.event s.odo.cp (.warmReset s.run.state s.run.runNumber cause)))

/-- WARM_RESET: taken in every run state, without a REPLY (R33). -/
def warmReset (h : Sender) (_ : Unit) (s : State) : State := s.warmReset (.command h)

def execWarmReset (h : Sender) (p : Params Unit) (s : State) : Host.Outcome State Fault Refusal :=
  .next (s.command h 0x05 p (warmReset h))

/-- The dominant count reaches 8: a warm reset with the cause LINK_BREAK, and break recovery begins (R170).
In break recovery the count does not run, and the event has no effect. -/
def linkBreak (s : State) : State := if s.link.recovery then s else s.warmReset .linkBreak

def execLinkBreak (s : State) : Host.Outcome State Fault Refusal := .next (s.unlessHeld linkBreak)

end Sys2Proof.Machine
end

