-- ==== Sys2Proof/Machine/Link.lean ====
section
/-! DEFINITION. The Link Controller (chapter 10): the broadcast, the command receiver and the judging of
command frames, link break detection, the transmission of the report lanes, and the commands SUBSCRIBE,
FLUSH_LANE and PARTITION, with the answer to an unknown command. -/
namespace Sys2Proof.Machine

/-! ## The broadcast (R166, 11.6.2) -/

/-- The local probes of a lane that are COUPLED (R69). -/
def Lane.coupledMask (l : Lane) : Word16 :=
  localProbes.foldl (fun m p => if l.coupling[p].state = .coupled then m ||| bit16 p.val else m) 0

/-- The outstanding records of a lane (R51). -/
def Sequencer.outstanding (q : Sequencer) (r : Rail) : Nat :=
  (q.ring.toList.filter fun x => x.outstanding && decide (x.lane = r)).length

/-- A fill in pages, rounded up (R166). -/
def inPages (bytes : Nat) : Nat := ceilDiv bytes 512

/-- Byte 6 of the fixed part (11.6.2). -/
def State.summaryByte (s : State) : Nat :=
  64 * s.run.state.code + 32 * Direction.code s.odo.direction + 16 * s.odo.standstill.toNat
    + 8 * s.odo.retrace.toNat + 4 * s.odo.lifted.toNat + 2 * s.run.suspension.toNat

/-- The condition word of rotating item 5 (11.6.2). -/
def State.conditionWord (s : State) : Nat :=
  128 * s.odo.standstill.toNat + 64 * s.odo.slip.toNat + 32 * Encoder.code s.odo.source
    + 16 * s.odo.retrace.toNat + 8 * s.odo.limit.isSome.toNat + 4 * s.seq.overspeed.toNat
    + 2 * s.odo.lifted.toNat + s.run.suspension.toNat

/-- The LIMIT end shown: the end of a set LIMIT; while LIMIT is clear the manual gives none, and the value is
free (notes/assumptions/5.md). -/
def State.limitEndCode (s : State) (i : Nat) : Nat :=
  match s.odo.limit with
  | some e => e.code
  | none => (s.freeBool i).toNat

/-- A coupled-probe mask with the lane state and the setup number (items 3 and 4). -/
def Lane.item (l : Lane) : List Byte := u16 l.coupledMask.toNat ++ u8 l.state.code ++ [l.setupNumber]

/-- Phase and queue depth of an engine (item 8). -/
def Engine.item (e : Engine) : List Byte := u8 e.state.code ++ u8 e.queue.length

/-- The rotating item of a frame (R166, 11.6.2). Bytes a layout does not assign are 0 (R183). -/
def State.rotating (s : State) (frame : Nat) : List Byte :=
  match frame with
  | 0 => i32 s.odo.hw
  | 1 => i32 s.windows.a.k
  | 2 => i32 s.windows.b.k
  | 3 => s.lanes.a.item
  | 4 => s.lanes.b.item
  | 5 => u8 s.conditionWord ++ u8 (s.limitEndCode 0) ++ u8 s.zones.muteCount ++ u8 s.zones.suspendSlot
  | 6 => i32 s.eval.alert.start
  | 7 => [s.eval.alert.count] ++ u8 (Rail.num s.eval.alert.rail) ++ u8 s.eval.alert.cls.val ++ u8 0
  | 8 => s.marker.engines.a.item ++ s.marker.engines.b.item
  | 9 => u16 s.windows.a.late ++ u16 s.windows.a.early
  | 10 => u16 s.windows.b.late ++ u16 s.windows.b.early
  | 11 => u8 (inPages s.link.intakeFill) ++ u8 (inPages s.link.lanes.n1.fill)
      ++ u8 (inPages s.link.lanes.n2.fill) ++ u8 (inPages s.link.lanes.n3.fill)
  | 12 => u16 s.odo.errorTally ++ u16 0
  | 13 => u16 s.run.runNumber.toNat ++ u8 s.run.state.code ++ u8 0
  | 14 => u8 (s.seq.outstanding .a) ++ u8 (s.seq.outstanding .b) ++ [s.seq.tagCounter] ++ u8 0
  | _ => u16 s.run.generation.toNat ++ u16 0

/-- The 12 bytes of a broadcast (R166). -/
def State.broadcastBytes (s : State) : List Byte :=
  i32 s.odo.cp ++ u16 s.odo.speed ++ u8 s.summaryByte
    ++ u8 (16 * s.link.nextFrame.val + 8 * s.link.gateOpen.toNat) ++ s.rotating s.link.nextFrame.val

/-- The sync pattern 0xF0B4 (11.6.1). -/
def syncBytes : List Byte := u16 0xF0B4

/-- A link frame begins: the sync is sent, the broadcast is sampled and the frame number advances (R165,
R166). -/
def linkFrame (s : State) : State :=
  (s.setLink { s.link with
    sync := syncBytes, broadcast := s.broadcastBytes, nextFrame := s.link.nextFrame + 1 }).drew 1

def execLinkFrame (s : State) : Host.Outcome State Fault Refusal := .next (s.unlessHeld linkFrame)

/-! ## The command receiver (R167) -/

/-- The receiver in RECEIVING with an empty frame. -/
def Receiver.receiving : Receiver :=
  { mode := .receiving, content := [], recessiveRun := 0, dominantSeen := false }

/-- Whether the receiver is RECEIVING and takes bits: not in break recovery (R170). -/
def LinkState.isReceiving (l : LinkState) : Bool := decide (l.receiver.mode = .receiving) && !l.recovery

/-- The receiver sees a delimiter in HUNTING (R167). Without effect in RECEIVING or in break recovery. -/
def delimiter (s : State) : State :=
  if decide (s.link.receiver.mode = .hunting) && !s.link.recovery then
    s.setLink { s.link with receiver := .receiving }
  else s

def execDelimiter (s : State) : Host.Outcome State Fault Refusal := .next (s.unlessHeld delimiter)

/-- Six recessive bits inside a frame (R167). -/
def abort (s : State) : State :=
  if s.link.isReceiving then
    s.setLink { s.link with receiver := .hunting, aborts := satAdd16 s.link.aborts 1 }
  else s

def execAbort (s : State) : Host.Outcome State Fault Refusal := .next (s.unlessHeld abort)

/-- The content of a frame reaches 57 bytes (R167). -/
def oversize (s : State) : State :=
  if s.link.isReceiving then
    s.setLink { s.link with receiver := .hunting, oversize := satAdd16 s.link.oversize 1 }
  else s

def execOversize (s : State) : Host.Outcome State Fault Refusal := .next (s.unlessHeld oversize)

/-! ## Judging a closed frame (R168) -/

/-- How a closed frame is judged (R168). -/
inductive FrameVerdict where
  | badLength
  | badNode
  | badCheck
  | noRoom
  | queued (content : List Byte)
  deriving DecidableEq, Repr

/-- Whether a content's length agrees with its parameter length, at most 50 (R168, test 4). -/
def lengthAgrees (bs : List Byte) : Bool :=
  decide ((byteAt bs 3).toNat ≤ 50) && decide (bs.length = (byteAt bs 3).toNat + 6)

/-- R168, the tests in order. -/
def LinkState.judgeFrame (l : LinkState) (content : List Bool) : FrameVerdict :=
  match bytesOfBits content with
  | none => .badLength
  | some bs =>
    if bs.length < 6 then .badLength
    else if (nodeOf (byteAt bs 0)).isNone then .badNode
    else if (checked bs).isNone then .badCheck
    else if lengthAgrees bs = false then .badLength
    else if l.intakePages * 512 < l.intakeFill + bs.length then .noRoom
    else .queued bs

/-- The Link Controller after a verdict (R168). -/
def LinkState.settleFrame (l : LinkState) (v : FrameVerdict) : LinkState :=
  match v with
  | .badLength => { l with badLength := satAdd16 l.badLength 1 }
  | .badNode => { l with badNode := satAdd16 l.badNode 1 }
  | .badCheck => { l with badCheck := satAdd16 l.badCheck 1 }
  | .noRoom => { l with noRoom := satAdd16 l.noRoom 1 }
  | .queued bs => { l with intake := l.intake ++ [bs] }

/-- A frame closes: it is judged, and the receiver returns to HUNTING (R167, R168). -/
def commandFrameReceived (content : List Bool) (s : State) : State :=
  if s.link.isReceiving then
    s.setLink { s.link.settleFrame (s.link.judgeFrame content) with receiver := .hunting }
  else s

def execCommandFrameReceived (content : List Bool) (s : State) : Host.Outcome State Fault Refusal :=
  .next (s.unlessHeld (commandFrameReceived content))

/-! ## Command fields (R170) -/

/-- The Link Controller at the end of a command field (R170). -/
def LinkState.fieldEnd (l : LinkState) (field : BitVec 64) : LinkState :=
  if l.recovery then
    if field = BitVec.allOnes 64 then { l with recovery := false, receiver := .hunting } else l
  else if field = 0 then { l with dominantCount := min (l.dominantCount + 1) 8 }
  else { l with dominantCount := 0 }

/-- A dominant count of 8 outside break recovery asks for a link break (R170). -/
def LinkState.breakDue (l : LinkState) : Bool := decide (8 ≤ l.dominantCount) && !l.recovery

/-- A command field ends; the link break that a count of 8 brings is the next event (R170;
notes/assumptions/32.md). -/
def commandFieldEnd (field : BitVec 64) (s : State) : State :=
  let t := s.setLink (s.link.fieldEnd field)
  if t.link.breakDue then t.putFirst .linkBreak else t

def execCommandFieldEnd (field : BitVec 64) (s : State) : Host.Outcome State Fault Refusal :=
  .next (s.unlessHeld (commandFieldEnd field))

/-! ## Report lane transmission (R171, R174) -/

/-- The lane once its head record has moved to the stage and its first byte has been sent; a lane left empty
with a tally non-zero queues its LOSS record (R171, R174). -/
def ReportLane.moveHead (l : ReportLane) (r : Record) (rest : List Record) : ReportLane :=
  let l' := { l with records := rest, stage := some (r, 1), lastByte := r.bytes.getD 0 0 }
  if rest.isEmpty && l.owesLoss then l'.makeLoss else l'

/-- A lane after one byte of its field (R171). -/
def ReportLane.sendByte (l : ReportLane) : ReportLane :=
  match l.stage with
  | some (r, sent) =>
    { l with
      lastByte := r.bytes.getD sent 0
      stage := if sent + 1 < r.size then some (r, sent + 1) else none }
  | none =>
    match l.records with
    | [] => { l with lastByte := fillByte }
    | r :: rest => l.moveHead r rest

/-- A byte of a node's report lane field is sent (R171). -/
def reportLaneByte (n : Node) (s : State) : State :=
  s.setLink { s.link with lanes := s.link.lanes.set n (s.link.lanes.get n).sendByte }

def execReportLaneByte (n : Node) (s : State) : Host.Outcome State Fault Refusal :=
  .next (s.unlessHeld (reportLaneByte n))

/-! ## Commands of the link -/

/-- A code outside the command index is answered UNKNOWN (R179). -/
def unknownCommand (h : Sender) (code : Byte) (s : State) : State := (s.take h code).refuse h code .unknown

def execUnknownCommand (h : Sender) (code : Byte) (s : State) : Host.Outcome State Fault Refusal :=
  .next (s.unlessHeld (unknownCommand h code))

/-- Replaces one report lane. -/
def State.setReportLane (s : State) (n : Node) (l : ReportLane) : State :=
  s.setLink { s.link with lanes := s.link.lanes.set n l }

/-- SUBSCRIBE (R172). -/
def subscribe (h : Sender) (a : SubscribeArgs) (s : State) : State :=
  if 32 ≤ a.kindMask.toNat then s.refuse h 0x38 .range
  else
    (s.setReportLane h.node { s.link.lanes.get h.node with
        kindMask := a.kindMask.truncate 5, classMask := a.classMask }).reply h 0x38 .ok
      ([a.kindMask] ++ u16 a.classMask.toNat)

def execSubscribe (h : Sender) (p : Params SubscribeArgs) (s : State) : Host.Outcome State Fault Refusal :=
  .next (s.command h 0x38 p (subscribe h))

/-- FLUSH_LANE (R175): the lane is emptied and its tallies are 0, then the REPLY is queued. -/
def flushLane (h : Sender) (_ : Unit) (s : State) : State :=
  (s.setReportLane h.node { s.link.lanes.get h.node with records := [], shed := 0, lost := 0 }).reply
    h 0x39 .ok []

def execFlushLane (h : Sender) (p : Params Unit) (s : State) : Host.Outcome State Fault Refusal :=
  .next (s.command h 0x39 p (flushLane h))

/-- A lane under a new partition: its records are removed and counted as lost (R173, R176). -/
def ReportLane.repartition (l : ReportLane) (cp : Int) (pages : Nat) : ReportLane :=
  let n := l.records.length
  let l' := if n = 0 then l else { l.noteLoss cp with lost := satAdd16 l.lost n }
  { l' with records := [], pages := pages }

/-- The Link Controller under a new partition (R176). -/
def LinkState.repartition (l : LinkState) (cp : Int) (a : PartitionArgs) : LinkState :=
  { l with
    intakePages := a.intake.toNat
    intake := []
    lanes :=
      { n1 := l.lanes.n1.repartition cp a.lane1.toNat, n2 := l.lanes.n2.repartition cp a.lane2.toNat,
        n3 := l.lanes.n3.repartition cp a.lane3.toNat } }

/-- Whether four page counts make a partition (R176). -/
def partitionFits (a : PartitionArgs) : Bool :=
  decide (1 ≤ a.intake.toNat) && decide (1 ≤ a.lane1.toNat) && decide (1 ≤ a.lane2.toNat)
    && decide (1 ≤ a.lane3.toNat)
    && decide (a.intake.toNat + a.lane1.toNat + a.lane2.toNat + a.lane3.toNat = 64)

/-- PARTITION (R176). -/
def partition (h : Sender) (a : PartitionArgs) (s : State) : State :=
  if s.run.state ≠ .stopped then s.refuse h 0x3A .busy
  else if partitionFits a = false then s.refuse h 0x3A .range
  else (s.setLink (s.link.repartition s.odo.cp a)).reply h 0x3A .ok []

def execPartition (h : Sender) (p : Params PartitionArgs) (s : State) : Host.Outcome State Fault Refusal :=
  .next (s.command h 0x3A p (partition h))

end Sys2Proof.Machine
end

