-- ==== Sys2Proof/Machine/Placement.lean ====
section
/-! DEFINITION. Matching a REPORT (R62), forming its gate outcomes (R64), placing what an admitted report
hands on (R78–R86) and completing its record (R50). -/
namespace Sys2Proof.Machine

/-! ## Placement (R78–R85) -/

/-- The elapsed time e of an echo time t under a delay D (R78). -/
def elapsed (t delay : Nat) : Nat := t - delay

/-- The along-track shift S (R79). -/
def shiftOf (e : Nat) (lead : Int) : Int := ((e : Int) * lead + 32768) / 65536

/-- The depth d, in quarter-millimetres (R82). -/
def depthOf (e depthFactor : Nat) : Nat := min (e * depthFactor / 65536) 1023

/-- The band of a depth: how many boundaries lie at or below it (R83). -/
def bandOf (bands : Vector Nat 7) (d : Nat) : Nat := (bands.toList.filter fun b => decide (b ≤ d)).length

/-- The rail position of a FLAW hit (R80). -/
def Probe.flawAt (p : Probe) (fp : Int) (t : Nat) : Int :=
  fp + p.offset + shiftOf (elapsed t p.delay) p.lead

/-- The coverage reference X0, also the rail position of a DROP hit (R84, R85). -/
def Probe.coverageAt (p : Probe) (fp : Int) : Int := fp + p.offset + p.shift

/-! ## Gate outcomes (R64) -/

/-- The outcome of a gate that placement is handed: a FLAW hit, a DROP hit or nothing (R64). -/
def gateHit (g : Gate) (x : GateResult) : Option HitKind :=
  match g.role with
  | .off | .coupling => none
  | .flaw => if x.amplitude.toNat ≠ 0 ∧ g.threshold ≤ x.amplitude.toNat then some .flaw else none
  | .drop => if x.amplitude.toNat < g.threshold then some .drop else none

/-- A FLAW hit placed (R78–R83, R86). -/
def State.placeFlaw (s : State) (r : Rail) (p : Fin 16) (g : Fin 4) (x : GateResult) (fp : Int) :
    PlacedHit :=
  let entry := s.probes[probeNo r p]
  let e := elapsed x.time.toNat entry.delay
  let d := depthOf e entry.depthFactor
  { rail := r, probe := (probeNo r p).val, group := entry.group, gate := g, kind := .flaw,
    x := entry.flawAt fp x.time.toNat, cell := cellOf (entry.flawAt fp x.time.toNat) s.params.cellTicks,
    depth := d, band := bandOf s.params.bands d, amplitude := x.amplitude.toNat }

/-- A DROP hit placed (R84, R86). -/
def State.placeDrop (s : State) (r : Rail) (p : Fin 16) (g : Fin 4) (x : GateResult) (fp : Int) :
    PlacedHit :=
  let entry := s.probes[probeNo r p]
  { rail := r, probe := (probeNo r p).val, group := entry.group, gate := g, kind := .drop,
    x := entry.coverageAt fp, cell := cellOf (entry.coverageAt fp) s.params.cellTicks,
    depth := 0, band := entry.gates[g].dropBand.val, amplitude := x.amplitude.toNat }

/-- A placed hit goes to its window, or is misplaced (R80, R84, R86). -/
def State.handOn (s : State) (h : PlacedHit) : State :=
  if inTickRange h.x then s.enterHit h else s.misplace h.rail

/-- One gate's outcome of an admitted report, placed with the values of `t`, the state at processing
(R77, R86). -/
def State.handGate (s t : State) (r : Rail) (p : Fin 16) (xs : Vector GateResult 4) (fp : Int)
    (g : Fin 4) : State :=
  match gateHit t.probes[probeNo r p].gates[g] xs[g] with
  | none => s
  | some .flaw => s.handOn (t.placeFlaw r p g xs[g] fp)
  | some .drop => s.handOn (t.placeDrop r p g xs[g] fp)

/-- The coverage reference of an admitted report (R85, R98). -/
def State.handCoverage (s : State) (r : Rail) (p : Fin 16) (fp : Int) : State :=
  let entry := s.probes[probeNo r p]
  let x := entry.coverageAt fp
  if inTickRange x then s.enterCoverage r entry.group (cellOf x s.params.cellTicks) else s

/-- What an admitted report hands on: the coverage reference, then the hits of gates 0 to 3 (R63, R86). -/
def State.handAll (s : State) (r : Rail) (p : Fin 16) (xs : Vector GateResult 4) (fp : Int) : State :=
  fourGates.foldl (fun u g => u.handGate s r p xs fp g) (s.handCoverage r p fp)

/-! ## Matching (R62) -/

/-- How a REPORT is judged (R62). -/
inductive Match where
  | stale
  | unexpected
  | duplicate
  | taken
  deriving DecidableEq, Repr

/-- R62, the tests in order. A probe byte above 15 names no local probe and is in no expected mask. -/
def matchReport (x : FiringRecord) (r : Rail) (tag : Byte) (probe : Byte) : Match :=
  if x.outstanding = false ∨ x.tag ≠ tag then .stale
  else if x.lane ≠ r then .unexpected
  else if 16 ≤ probe.toNat ∨ x.expected.getLsbD probe.toNat = false then .unexpected
  else if x.received.getLsbD probe.toNat then .duplicate
  else .taken

/-- The local probe of a probe byte. -/
def localOf (probe : Byte) : Fin 16 := ⟨probe.toNat % 16, Nat.mod_lt _ (by decide)⟩

/-- A taken report adds its probe to the received mask (R50, R62). -/
def State.receive (s : State) (i : Fin 64) (p : Fin 16) : State :=
  let x := s.seq.ring[i]
  s.setSeq { s.seq with ring := s.seq.ring.set i { x with received := x.received ||| bit16 p.val } }

/-- R65: whether the hits and coverage of a taken report are admitted. -/
def State.admits (s : State) (r : Rail) (p : Fin 16) (kind : CycleKind) : Bool :=
  decide (kind = .distance) && decide ((s.lanes.get r).coupling[p].state = .coupled)
    && decide ((s.lanes.get r).state = .ok)

/-- Steps 2 and 3 of R63. -/
def State.handIfAdmitted (s : State) (r : Rail) (p : Fin 16) (xs : Vector GateResult 4)
    (x : FiringRecord) : State :=
  if s.admits r p x.kind then s.handAll r p xs x.fp else s

/-- A record whose received mask equals its expected mask is released, its lane told, and for a DISTANCE record
the drain judged (R30, R50). -/
def State.completeRecord (s : State) (i : Fin 64) : State :=
  if s.seq.ring[i].received = s.seq.ring[i].expected then
    ((s.freeSlot i).orderAnswered s.seq.ring[i].lane).judgeRelease s.seq.ring[i].kind
  else s

/-- A taken report: received mask, coupling, what it hands on, and the release (R50, R62, R63). -/
def State.takeReport (s : State) (r : Rail) (tag : Byte) (p : Fin 16) (xs : Vector GateResult 4) : State :=
  let x := s.seq.ring[ringSlot tag]
  (((s.receive (ringSlot tag) p).observeCoupling r p xs x.kind).handIfAdmitted r p xs x).completeRecord
    (ringSlot tag)

/-- A REPORT is judged and, if taken, processed; else its lane's tally of the failed test adds 1 (R62). -/
def report (r : Rail) (tag : Byte) (probe : Byte) (xs : Vector GateResult 4) (s : State) : State :=
  let l := s.lanes.get r
  match matchReport s.seq.ring[ringSlot tag] r tag probe with
  | .stale => s.setLane r { l with stale := satAdd16 l.stale 1 }
  | .unexpected => s.setLane r { l with unexpected := satAdd16 l.unexpected 1 }
  | .duplicate => s.setLane r { l with duplicate := satAdd16 l.duplicate 1 }
  | .taken => s.takeReport r tag (localOf probe) xs

def execReport (r : Rail) (tag probe : Byte) (xs : Vector GateResult 4) (s : State) :
    Host.Outcome State Fault Refusal :=
  .next (s.unlessHeld (report r tag probe xs))

end Sys2Proof.Machine
end

