-- ==== Sys2Proof/Machine/Status.lean ====
section
/-! DEFINITION. READ_STATUS: the fields of its nine sections in the order of R182, encoded by R183. -/
namespace Sys2Proof.Machine

/-- A two-byte field held at 65,535 (R183; notes/assumptions/15.md). -/
def sat16 (n : Nat) : List Byte := u16 (min n 65535)

/-! ## Section 0, run and odometry -/

def Reach.bytes (r : Reach) : List Byte := i16 r.least ++ i16 r.greatest

/-- LIMIT with its end; the end is free while LIMIT is clear (notes/assumptions/5.md). -/
def State.limitBytes (s : State) : List Byte := flag s.odo.limit.isSome ++ u8 (s.limitEndCode 0)

def State.section0 (s : State) : List Byte :=
  u8 s.run.state.code ++ u16 s.run.runNumber.toNat ++ flag s.run.suspension ++ u16 s.run.generation.toNat
    ++ s.run.reach.a.bytes ++ s.run.reach.b.bytes ++ s.run.reachAll.bytes ++ i32 s.odo.cp ++ i32 s.odo.hw
    ++ u8 (Direction.code s.odo.direction) ++ u8 (Encoder.code s.odo.source) ++ u16 s.odo.speed
    ++ flag s.odo.standstill ++ flag s.odo.slip ++ flag s.odo.retrace ++ s.limitBytes ++ flag s.odo.lifted
    ++ u8 s.odo.mismatch ++ u8 s.odo.agreement ++ u16 s.odo.errorTally

/-! ## Section 1, firing -/

def CycleState.bytes (c : CycleState) : List Byte :=
  match c with
  | .idle => u8 0 ++ u8 0
  | .stepping k => u8 1 ++ u8 k

/-- The outstanding record with the earliest issue time. Of the two orders of one step the one issued first,
which has the tag before the other's, is the older (R48, R51). -/
def older (now : Byte) (x y : FiringRecord) : FiringRecord :=
  if y.issued < x.issued ∨ (y.issued = x.issued ∧ (now - x.tag).toNat < (now - y.tag).toNat) then y else x

/-- The oldest outstanding record, or none (R51). -/
def Sequencer.oldest (q : Sequencer) : Option FiringRecord :=
  match q.ring.toList.filter FiringRecord.outstanding with
  | [] => none
  | x :: rest => some (rest.foldl (older q.tagCounter) x)

/-- The oldest record's fields behind a present mark of 1, or a present mark of 0 (R182;
notes/assumptions/15.md). The age is in µs (R51). -/
def State.oldestBytes (s : State) : List Byte :=
  match s.seq.oldest with
  | none => flag false
  | some x => flag true ++ [x.tag] ++ u8 (Rail.num x.lane) ++ u8 x.step ++ u8 (CycleKind.code x.kind)
      ++ sat16 (10 * (s.now10 - x.issued))

def State.section1 (s : State) : List Byte :=
  s.seq.cycle.bytes ++ u8 (CycleKind.code s.seq.kind) ++ flag s.seq.overrun ++ flag s.seq.stopping
    ++ flag s.seq.pendingTrigger ++ flag s.seq.overspeed ++ i32 s.seq.lastTrigger ++ [s.seq.tagCounter]
    ++ u8 (s.seq.outstanding .a) ++ u8 (s.seq.outstanding .b) ++ s.oldestBytes

/-! ## Sections 2 and 3, lanes -/

def Coupling.bytes (c : Coupling) : List Byte := u8 c.state.code ++ u8 c.absent ++ u8 c.present

def Lane.bytes (l : Lane) : List Byte :=
  u8 l.state.code ++ [l.setupNumber] ++ u8 l.setupSent ++ flag l.setupFinal ++ u16 l.timer ++ u8 l.incomplete
    ++ u16 l.corrupt ++ u16 l.stale ++ u16 l.unexpected ++ u16 l.duplicate
    ++ localProbes.flatMap fun p => l.coupling[p].bytes

/-! ## Section 4, windows and evaluation -/

/-- The lowest and highest index of the tail; free while it is empty (notes/assumptions/5.md). -/
def State.tailBytes (s : State) (r : Rail) (i : Nat) : List Byte :=
  match (s.windows.get r).tail, (s.windows.get r).tail.getLast? with
  | x :: _, some y => i32 x.index ++ i32 y.index
  | _, _ => i32 (s.freeInt i) ++ i32 (s.freeInt (i + 1))

/-- The pattern runs open on a rail (R142). -/
def Evaluator.openRuns (e : Evaluator) (r : Rail) : Nat :=
  ((e.runs.get r).toList.filter fun x => x.length != 0).length

def State.railSection (s : State) (r : Rail) (i : Nat) : List Byte :=
  let w := s.windows.get r
  let g := s.eval.gaps.get r
  i32 w.k ++ i32 w.opening ++ i32 (s.closeTick r) ++ u8 w.tail.length ++ s.tailBytes r i
    ++ u16 w.late ++ u16 w.early ++ u16 w.misplaced ++ u16 g.length ++ i32 g.start ++ [g.missing]
    ++ u8 (s.eval.openRuns r)

/-- The alert record, in the order of R137 (notes/assumptions/15.md). -/
def Alert.bytes (a : Alert) : List Byte := i32 a.start ++ u8 (Rail.num a.rail) ++ u8 a.cls.val ++ [a.count]

def State.section4 (s : State) : List Byte :=
  s.railSection .a 0 ++ s.railSection .b 2 ++ u8 s.params.cellTicks ++ u16 s.params.closeMargin
    ++ [s.params.required.a] ++ [s.params.required.b] ++ u8 s.params.gapMin ++ s.eval.alert.bytes

/-! ## Section 5, zones -/

def State.section5 (s : State) : List Byte :=
  u8 s.zones.muteCount ++ u8 s.zones.suspendSlot ++ [s.zones.idCounter]

/-! ## Sections 6 and 7, markers -/

/-- The current mark behind a present mark of 1; every field 0 when there is none (R182). The elapsed time is in
whole ms, the 10 µs count divided by 100 and rounded down (DESIGN CHOICE, notes/assumptions/35.md); the distance
in PURGE and RECOVER is the model's choice too (notes/assumptions/34.md). -/
def EngineState.markBytes (e : EngineState) : List Byte :=
  match e with
  | .painting _ m => flag true ++ u8 (Origin.code m.origin) ++ i32 m.target ++ u8 (m.spray.val + 1)
      ++ u8 m.cls.val ++ u8 (Arming.code m.arming) ++ u8 m.dash ++ sat16 m.distance ++ sat16 (m.elapsed / 100)
  | .idle | .halted => List.replicate 14 0

/-- The side of an entry; free where none is recorded (notes/assumptions/5.md). -/
def State.sideCode (s : State) (e : MarkerEntry) (i : Nat) : Nat :=
  match e.side with
  | some x => x.code
  | none => (s.freeBool i).toNat

def State.entryBytes (s : State) (e : MarkerEntry) (i : Nat) : List Byte :=
  i32 e.target ++ u8 (e.spray.val + 1) ++ u8 e.cls.val ++ u8 (Origin.code e.origin)
    ++ u8 (Arming.code e.arming) ++ u8 (s.sideCode e i)

/-- The entries of a queue in order, the i-th free value belonging to the i-th entry. -/
def State.queueBytes (s : State) : List MarkerEntry → Nat → List Byte
  | [], _ => []
  | e :: rest, i => s.entryBytes e i ++ s.queueBytes rest (i + 1)

/-- The fire point of the head; free while the queue is empty (notes/assumptions/5.md). -/
def State.headFirePoint (s : State) (r : Rail) : Int :=
  match (s.marker.engines.get r).queue with
  | e :: _ => s.firePoint e.target
  | [] => s.freeInt 0

def State.markerSection (s : State) (r : Rail) : List Byte :=
  let e := s.marker.engines.get r
  u8 e.state.code ++ u16 s.marker.lead ++ i32 (s.gun r) ++ i32 (s.headFirePoint r) ++ e.state.markBytes
    ++ u8 e.queue.length ++ s.queueBytes e.queue 1

/-! ## Section 8, link -/

def ReportLane.bytes (l : ReportLane) : List Byte :=
  u8 l.kindMask.toNat ++ u16 l.classMask.toNat ++ u16 l.shed ++ u16 l.lost ++ i32 l.firstLoss ++ i32 l.lastLoss

def State.section8 (s : State) : List Byte :=
  let l := s.link
  u8 l.intakePages ++ u8 l.lanes.n1.pages ++ u8 l.lanes.n2.pages ++ u8 l.lanes.n3.pages
    ++ u16 l.intakeFill ++ u16 l.lanes.n1.fill ++ u16 l.lanes.n2.fill ++ u16 l.lanes.n3.fill
    ++ l.lanes.n1.bytes ++ l.lanes.n2.bytes ++ l.lanes.n3.bytes
    ++ u16 l.oversize ++ u16 l.badNode ++ u16 l.badCheck ++ u16 l.badLength ++ u16 l.noRoom ++ u16 l.aborts
    ++ u8 l.dominantCount ++ flag l.recovery

/-! ## The command (R182) -/

/-- The fields of a section, or none for a number above 8 (R182). -/
def State.sectionBytes (s : State) (n : Nat) : Option (List Byte) :=
  match n with
  | 0 => some s.section0
  | 1 => some s.section1
  | 2 => some s.lanes.a.bytes
  | 3 => some s.lanes.b.bytes
  | 4 => some s.section4
  | 5 => some s.section5
  | 6 => some (s.markerSection .a)
  | 7 => some (s.markerSection .b)
  | 8 => some s.section8
  | _ => none

/-- READ_STATUS (R182). It changes nothing but the model's counter of free values. -/
def readStatus (h : Sender) (b : Byte) (s : State) : State :=
  match s.sectionBytes b.toNat with
  | none => s.refuse h 0x41 .range
  | some bs => (s.reply h 0x41 .ok ([b] ++ bs)).drew 20

def execReadStatus (h : Sender) (p : Params Byte) (s : State) : Host.Outcome State Fault Refusal :=
  .next (s.command h 0x41 p (readStatus h))

end Sys2Proof.Machine
end

