-- ==== Sys2Proof/Machine/Tables.lean ====
section
/-! DEFINITION. The commands that write and read the configuration: SET_PARAM and GET_PARAM (R180, R181), the
Probe Table (R75), the fire sequence list (R37), the Pattern Table (R127) and the spray patterns (R145). -/
namespace Sys2Proof.Machine

/-- The generation counter as a REPLY carries it (R35). -/
def State.generationBytes (s : State) : List Byte := u16 s.run.generation.toNat

/-! ## SET_PARAM (R180) -/

/-- The effects of an accepted SECONDARY_MODE write (R13). -/
def State.modeWritten (s : State) : State :=
  if s.params.secondaryMode = .off then (s.clearSlip).returnSource .modeWrite else s.clearSlip

/-- What a taken write does at once beyond storing the value: SECONDARY_MODE (R13), and the gun offsets, which
move G and so ask for the due test (R149, R162). -/
def State.paramWritten (s : State) (id : Nat) : State :=
  match id with
  | 7 => s.modeWritten
  | 25 => s.dueTest .a
  | 26 => s.dueTest .b
  | _ => s

/-- A taken write (R180). -/
def State.takeParam (s : State) (h : Sender) (id : Byte) (result : Result) (value : Int) : State :=
  let t := (s.setParams (s.params.write id.toNat value)).bumpGeneration.paramWritten id.toNat
  t.reply h 0x10 result ([id] ++ i32 value ++ t.generationBytes)

/-- SET_PARAM (R180). -/
def setParam (h : Sender) (a : SetParamArgs) (s : State) : State :=
  match judgeParam s.run.state a.id.toNat a.value.toInt with
  | .refused r => s.refuse h 0x10 r
  | .taken r value => s.takeParam h a.id r value

def execSetParam (h : Sender) (p : Params SetParamArgs) (s : State) : Host.Outcome State Fault Refusal :=
  .next (s.command h 0x10 p (setParam h))

/-- GET_PARAM (R181). -/
def getParam (h : Sender) (id : Byte) (s : State) : State :=
  match paramSpec id.toNat with
  | none => s.refuse h 0x11 .range
  | some _ => s.reply h 0x11 .ok ([id] ++ i32 (s.params.read id.toNat))

def execGetParam (h : Sender) (p : Params Byte) (s : State) : Host.Outcome State Fault Refusal :=
  .next (s.command h 0x11 p (getParam h))

/-! ## The Probe Table (R75) -/

/-- The bytes of a gate record (11.3). -/
def Gate.bytes (g : Gate) : List Byte :=
  u8 g.role.code ++ u16 g.windowStart ++ u16 g.windowWidth ++ u8 g.threshold ++ u8 g.dropBand.val

/-- The 40 bytes of a probe entry (11.3). -/
def Probe.bytes (p : Probe) : List Byte :=
  flag p.enabled ++ u8 p.group.val ++ i16 p.offset ++ i16 p.shift ++ u16 p.delay ++ i16 p.lead
    ++ u16 p.depthFactor ++ fourGates.flatMap fun g => p.gates[g].bytes

/-- The value taken that a CLAMPED REPLY to WRITE_PROBE carries before the counter (R75 step 4;
notes/assumptions/19.md). -/
def takenDelay (result : Result) (p : Probe) : List Byte :=
  match result with
  | .clamped => u16 p.delay
  | _ => []

/-- A taken WRITE_PROBE. Outside STOPPED the stopped fields carried equal those held, so the whole entry may
be stored (R34, R75). -/
def State.takeProbe (s : State) (h : Sender) (n : Fin 32) (p : Probe) (result : Result) : State :=
  let t := (s.setProbes (s.probes.set n p)).bumpGeneration
  t.reply h 0x12 result (takenDelay result p ++ t.generationBytes)

/-- OK, or CLAMPED when a value was taken at the end of its range. -/
def okOrClamped (clamped : Bool) : Result := if clamped then .clamped else .ok

/-- WRITE_PROBE (R75): the number, the stopped fields outside STOPPED, the ranges, then D. -/
def writeProbe (h : Sender) (a : WriteProbeArgs) (s : State) : State :=
  if hn : a.probe.toNat < 32 then
    let n : Fin 32 := ⟨a.probe.toNat, hn⟩
    if s.run.state ≠ .stopped ∧ WriteProbeArgs.sameStopped a s.probes[n] = false then s.refuse h 0x12 .busy
    else
      match WriteProbeArgs.entry a with
      | none => s.refuse h 0x12 .range
      | some p => s.takeProbe h n p (okOrClamped (decide (4095 < a.delay.toNat)))
  else s.refuse h 0x12 .range

def execWriteProbe (h : Sender) (p : Params WriteProbeArgs) (s : State) : Host.Outcome State Fault Refusal :=
  .next (s.command h 0x12 p (writeProbe h))

/-- READ_PROBE (R75). -/
def readProbe (h : Sender) (b : Byte) (s : State) : State :=
  if hn : b.toNat < 32 then s.reply h 0x13 .ok (s.probes[(⟨b.toNat, hn⟩ : Fin 32)]).bytes
  else s.refuse h 0x13 .range

def execReadProbe (h : Sender) (p : Params Byte) (s : State) : Host.Outcome State Fault Refusal :=
  .next (s.command h 0x13 p (readProbe h))

/-! ## The fire sequence list (R37) -/

/-- Whether a carried listen time is taken at an end of its range (R37). -/
def listenClamped (us : Nat) : Bool := clampListen us != us

/-- A taken WRITE_STEP; outside STOPPED the probe set carried equals the one held (R37). -/
def State.takeStep (s : State) (h : Sender) (k : Fin 16) (a : WriteStepArgs) : State :=
  let listen := clampListen a.listen.toNat
  let t := (s.setSeq { s.seq with
    steps := s.seq.steps.set k { probeSet := a.probeSet, listen := listen } }).bumpGeneration
  t.reply h 0x14 (okOrClamped (listenClamped a.listen.toNat)) (u16 listen ++ t.generationBytes)

/-- WRITE_STEP (R37). -/
def writeStep (h : Sender) (a : WriteStepArgs) (s : State) : State :=
  if hk : a.step.toNat < 16 then
    let k : Fin 16 := ⟨a.step.toNat, hk⟩
    if s.run.state ≠ .stopped ∧ a.probeSet ≠ s.seq.steps[k].probeSet then s.refuse h 0x14 .busy
    else s.takeStep h k a
  else s.refuse h 0x14 .range

def execWriteStep (h : Sender) (p : Params WriteStepArgs) (s : State) : Host.Outcome State Fault Refusal :=
  .next (s.command h 0x14 p (writeStep h))

/-- READ_STEP (R37). -/
def readStep (h : Sender) (b : Byte) (s : State) : State :=
  if hk : b.toNat < 16 then
    let x := s.seq.steps[(⟨b.toNat, hk⟩ : Fin 16)]
    s.reply h 0x15 .ok (u32 x.probeSet.toNat ++ u16 x.listen ++ u8 s.params.stepCount)
  else s.refuse h 0x15 .range

def execReadStep (h : Sender) (p : Params Byte) (s : State) : Host.Outcome State Fault Refusal :=
  .next (s.command h 0x15 p (readStep h))

/-! ## The Pattern Table (R127, R135) -/

/-- The bytes of a term (11.3). -/
def Term.bytes (t : Term) : List Byte :=
  u8 t.group.val ++ u8 t.kind.code ++ [t.bands] ++ u8 t.minCount ++ u8 t.minAmplitude

/-- The bytes of a pattern entry as WRITE_PATTERN carries them after the number (11.3). -/
def Pattern.bytes (p : Pattern) : List Byte :=
  u8 (p.enabled.toNat + 2 * p.urgent.toNat) ++ u8 p.rails.toNat ++ u8 p.spread ++ u8 p.minRun ++ u8 p.cls.val
    ++ u8 (sprayNo p.spray) ++ u8 p.terms.length ++ p.terms.flatMap Term.bytes

/-- A pattern run as READ_PATTERN returns it: the start cell only when the length is not 0 (R127;
notes/assumptions/14.md). -/
def PatternRun.bytes (r : PatternRun) : List Byte := u8 r.length ++ (if r.length = 0 then [] else i32 r.start)

/-- The runs of a pattern are abandoned on both rails (R135). -/
def Evaluator.abandon (e : Evaluator) (n : Fin 32) : Evaluator :=
  { e with runs := { a := e.runs.a.set n .closed, b := e.runs.b.set n .closed } }

/-- A taken WRITE_PATTERN (R127, R135). -/
def State.takePattern (s : State) (h : Sender) (n : Fin 32) (p : Pattern) : State :=
  let t := (s.setEval ({ s.eval with patterns := s.eval.patterns.set n p }.abandon n)).bumpGeneration
  t.reply h 0x16 .ok t.generationBytes

/-- WRITE_PATTERN (R127). -/
def writePattern (h : Sender) (a : WritePatternArgs) (s : State) : State :=
  if hn : a.pattern.toNat < 32 then
    match WritePatternArgs.entry a with
    | none => s.refuse h 0x16 .range
    | some p => s.takePattern h ⟨a.pattern.toNat, hn⟩ p
  else s.refuse h 0x16 .range

def execWritePattern (h : Sender) (p : Params WritePatternArgs) (s : State) :
    Host.Outcome State Fault Refusal :=
  .next (s.command h 0x16 p (writePattern h))

/-- READ_PATTERN (R127). -/
def readPattern (h : Sender) (b : Byte) (s : State) : State :=
  if hn : b.toNat < 32 then
    let n : Fin 32 := ⟨b.toNat, hn⟩
    s.reply h 0x17 .ok (s.eval.patterns[n].bytes ++ s.eval.runs.a[n].bytes ++ s.eval.runs.b[n].bytes)
  else s.refuse h 0x17 .range

def execReadPattern (h : Sender) (p : Params Byte) (s : State) : Host.Outcome State Fault Refusal :=
  .next (s.command h 0x17 p (readPattern h))

/-! ## The spray patterns (R145) -/

/-- The five fields of a spray pattern (11.3). -/
def Spray.bytes (x : Spray) : List Byte :=
  u8 x.dashCount ++ u16 x.dashLength ++ u16 x.gapLength ++ flag x.colour ++ flag x.purge

/-- A taken WRITE_SPRAY (R145). -/
def State.takeSpray (s : State) (h : Sender) (n : Fin 7) (x : Spray) : State :=
  let t := (s.setMarker { s.marker with sprays := s.marker.sprays.set n x }).bumpGeneration
  t.reply h 0x18 .ok t.generationBytes

/-- WRITE_SPRAY (R145). -/
def writeSpray (h : Sender) (a : WriteSprayArgs) (s : State) : State :=
  match sprayOf a.number, WriteSprayArgs.entry a with
  | some n, some x => s.takeSpray h n x
  | _, _ => s.refuse h 0x18 .range

def execWriteSpray (h : Sender) (p : Params WriteSprayArgs) (s : State) : Host.Outcome State Fault Refusal :=
  .next (s.command h 0x18 p (writeSpray h))

/-- READ_SPRAY (R145). -/
def readSpray (h : Sender) (b : Byte) (s : State) : State :=
  match sprayOf b with
  | some n => s.reply h 0x19 .ok s.marker.sprays[n].bytes
  | none => s.refuse h 0x19 .range

def execReadSpray (h : Sender) (p : Params Byte) (s : State) : Host.Outcome State Fault Refusal :=
  .next (s.command h 0x19 p (readSpray h))

end Sys2Proof.Machine
end

