-- ==== Sys2Proof/Machine/Dispatch.lean ====
section
/-! DEFINITION. The dispatch: one arm for each command, calling its meaning. -/
namespace Sys2Proof.Machine

def exec (i : Instr) (s : State) : Host.Outcome State Fault Refusal :=
  match i with
  | .resetNAsserted => Sys2Proof.Machine.execResetNAsserted s
  | .resetRelease levels => Sys2Proof.Machine.execResetRelease levels s
  | .encoderTick enc sign => Sys2Proof.Machine.execEncoderTick enc sign s
  | .illegalTransition enc => Sys2Proof.Machine.execIllegalTransition enc s
  | .headTaken rail => Sys2Proof.Machine.execHeadTaken rail s
  | .standstillSet => Sys2Proof.Machine.execStandstillSet s
  | .speedIntervalEnd => Sys2Proof.Machine.execSpeedIntervalEnd s
  | .slipWindowEnd => Sys2Proof.Machine.execSlipWindowEnd s
  | .liftSample level => Sys2Proof.Machine.execLiftSample level s
  | .keepaliveTrigger => Sys2Proof.Machine.execKeepaliveTrigger s
  | .stepTimerExpiry => Sys2Proof.Machine.execStepTimerExpiry s
  | .firingRecordTimeout slot => Sys2Proof.Machine.execFiringRecordTimeout slot s
  | .setupMessageSent lane => Sys2Proof.Machine.execSetupMessageSent lane s
  | .fireMessageSent lane => Sys2Proof.Machine.execFireMessageSent lane s
  | .ready lane setupNumber => Sys2Proof.Machine.execReady lane setupNumber s
  | .report lane tag probe gates => Sys2Proof.Machine.execReport lane tag probe gates s
  | .corruptMessage lane => Sys2Proof.Machine.execCorruptMessage lane s
  | .setupTimeout lane => Sys2Proof.Machine.execSetupTimeout lane s
  | .retry lane => Sys2Proof.Machine.execRetry lane s
  | .drain => Sys2Proof.Machine.execDrain s
  | .pullinEnd rail => Sys2Proof.Machine.execPullinEnd rail s
  | .holdPulsePeriod rail => Sys2Proof.Machine.execHoldPulsePeriod rail s
  | .holdEnd rail => Sys2Proof.Machine.execHoldEnd rail s
  | .gapEnd rail => Sys2Proof.Machine.execGapEnd rail s
  | .purgeEnd rail => Sys2Proof.Machine.execPurgeEnd rail s
  | .recoverEnd rail => Sys2Proof.Machine.execRecoverEnd rail s
  | .linkFrame => Sys2Proof.Machine.execLinkFrame s
  | .reportLaneByte lane => Sys2Proof.Machine.execReportLaneByte lane s
  | .commandFrameReceived content => Sys2Proof.Machine.execCommandFrameReceived content s
  | .abort => Sys2Proof.Machine.execAbort s
  | .oversize => Sys2Proof.Machine.execOversize s
  | .commandFieldEnd field => Sys2Proof.Machine.execCommandFieldEnd field s
  | .linkBreak => Sys2Proof.Machine.execLinkBreak s
  | .unknownCommand h code => Sys2Proof.Machine.execUnknownCommand h code s
  | .startRun h p => Sys2Proof.Machine.execStartRun h p s
  | .pauseRun h p => Sys2Proof.Machine.execPauseRun h p s
  | .resumeRun h p => Sys2Proof.Machine.execResumeRun h p s
  | .endRun h p => Sys2Proof.Machine.execEndRun h p s
  | .warmReset h p => Sys2Proof.Machine.execWarmReset h p s
  | .setParam h p => Sys2Proof.Machine.execSetParam h p s
  | .getParam h p => Sys2Proof.Machine.execGetParam h p s
  | .writeProbe h p => Sys2Proof.Machine.execWriteProbe h p s
  | .readProbe h p => Sys2Proof.Machine.execReadProbe h p s
  | .writeStep h p => Sys2Proof.Machine.execWriteStep h p s
  | .readStep h p => Sys2Proof.Machine.execReadStep h p s
  | .writePattern h p => Sys2Proof.Machine.execWritePattern h p s
  | .readPattern h p => Sys2Proof.Machine.execReadPattern h p s
  | .writeSpray h p => Sys2Proof.Machine.execWriteSpray h p s
  | .readSpray h p => Sys2Proof.Machine.execReadSpray h p s
  | .addZone h p => Sys2Proof.Machine.execAddZone h p s
  | .cancelZone h p => Sys2Proof.Machine.execCancelZone h p s
  | .listZones h p => Sys2Proof.Machine.execListZones h p s
  | .markerResumeRetry h p => Sys2Proof.Machine.execMarkerResumeRetry h p s
  | .markerResumeSkip h p => Sys2Proof.Machine.execMarkerResumeSkip h p s
  | .markerTest h p => Sys2Proof.Machine.execMarkerTest h p s
  | .markerCancel h p => Sys2Proof.Machine.execMarkerCancel h p s
  | .rebase h p => Sys2Proof.Machine.execRebase h p s
  | .subscribe h p => Sys2Proof.Machine.execSubscribe h p s
  | .flushLane h p => Sys2Proof.Machine.execFlushLane h p s
  | .partition h p => Sys2Proof.Machine.execPartition h p s
  | .readCell h p => Sys2Proof.Machine.execReadCell h p s
  | .readStatus h p => Sys2Proof.Machine.execReadStatus h p s
  | .delimiter => Sys2Proof.Machine.execDelimiter s

end Sys2Proof.Machine
end

