-- ==== Sys2Proof/Machine/Tick.lean ====
section
/-! DEFINITION. Time. With no command waiting the part either takes up an event that its state already asks
for, or lives through one edge of the 8 MHz sample clock (R1): the filters sample their inputs and the time
bases (R4, R155) and the link's bit clock (R165) advance. What falls due joins the queue of commands, in a
fixed order (notes/assumptions/2.md). -/
namespace Sys2Proof.Machine

/-! ## Events the state asks for -/

/-- The IDLE engine of a rail has a due head (R150). -/
def State.headWaits (s : State) (r : Rail) : Bool :=
  match (s.marker.engines.get r).state, (s.marker.engines.get r).queue with
  | .idle, e :: _ => s.isDue r e
  | _, _ => false

/-- HOLD or GAP of a mark has reached its distance or its time (R155). -/
def EngineState.reached (e : EngineState) : Bool :=
  match e with
  | .painting .hold m => decide (m.shape.dashLength ≤ m.distance) || decide (m.dashTime ≤ m.dashElapsed)
  | .painting .gap m => decide (m.shape.gapLength ≤ m.distance) || decide (m.phaseTime ≤ m.elapsed)
  | _ => false

/-- The event of a marker engine that stands at the end of HOLD or GAP, or takes its head. -/
def State.engineEvent (s : State) (r : Rail) : Option Instr :=
  if (s.marker.engines.get r).state.reached then
    match (s.marker.engines.get r).state with
    | .painting .gap _ => some (.gapEnd r)
    | _ => some (.holdEnd r)
  else if s.headWaits r then some (.headTaken r)
  else none

/-- The sending of the message at the head of a lane's queue, in the state that sends its kind (R55). -/
def Lane.sendEvent (l : Lane) (r : Rail) : Option Instr :=
  match l.state, l.txQueue with
  | .setup, .setup .. :: _ => some (.setupMessageSent r)
  | .ok, .fire .. :: _ => some (.fireMessageSent r)
  | _, _ => none

/-- The command the Command Processor takes next: the head of the intake (R178). -/
def LinkState.nextCommand (l : LinkState) : Option Instr :=
  match l.intake with
  | [] => none
  | f :: _ => commandOfFrame f

/-- The first event that the state asks for: link break, drain, the engines, the Command Processor, the sending
of lane messages. -/
def State.immediate (s : State) : Option Instr :=
  if s.link.breakDue then some .linkBreak
  else if s.drainStarts then some .drain
  else
    (s.engineEvent .a).or <| (s.engineEvent .b).or <| s.link.nextCommand.or <|
      (s.lanes.a.sendEvent .a).or (s.lanes.b.sendEvent .b)

/-! ## Encoder inputs (R1) -/

/-- Whether a sample makes the filter accept a change (R1). -/
def InputFilter.accepts (f : InputFilter) (level : Bool) (n : Nat) : Bool :=
  level != f.accepted && decide (n ≤ f.run + 1)

/-- The run count after a sample that makes no acceptance (R1). -/
def InputFilter.sampled (f : InputFilter) (level : Bool) (n : Nat) : InputFilter :=
  if level = f.accepted then { f with run := 0 }
  else if n ≤ f.run + 1 then f
  else { f with run := f.run + 1 }

/-- The run counts of an encoder after a sample; an acceptance is made by its event (R1). -/
def Quadrature.sampled (q : Quadrature) (a b : Bool) (n : Nat) : Quadrature :=
  { a := q.a.sampled a n, b := q.b.sampled b n }

/-- The sign of the tick that a turn of channel A, or of B, makes (table of R2). -/
def Quadrature.signOf (q : Quadrature) (channelA : Bool) : Direction :=
  if turnsA q .forward == channelA then .forward else .backward

/-- The event of an encoder at a sample (R2, R3). -/
def Quadrature.event (q : Quadrature) (e : Encoder) (a b : Bool) (n : Nat) : List Instr :=
  match q.a.accepts a n, q.b.accepts b n with
  | true, true => [.illegalTransition e]
  | true, false => [.encoderTick e (q.signOf true)]
  | false, true => [.encoderTick e (q.signOf false)]
  | false, false => []

/-- The encoder events of an edge. -/
def State.encoderEvents (s : State) : List Instr :=
  s.odo.enc1.event .primary s.pins.enc1A s.pins.enc1B s.params.encFilter
    ++ s.odo.enc2.event .secondary s.pins.enc2A s.pins.enc2B s.params.encFilter

/-- The filters after an edge. -/
def State.sampleInputs (s : State) : State :=
  s.setOdo { s.odo with
    enc1 := s.odo.enc1.sampled s.pins.enc1A s.pins.enc1B s.params.encFilter
    enc2 := s.odo.enc2.sampled s.pins.enc2A s.pins.enc2B s.params.encFilter }

/-! ## The 10 µs base (R42, R49, R155, R156) -/

/-- The events of a mark in progress at a period that brings the counts to those of `m`. -/
def phaseEvents (r : Rail) (phase : PaintPhase) (m : Mark) : List Instr :=
  match phase with
  | .pullin => if m.phaseTime ≤ m.elapsed then [.pullinEnd r] else []
  | .hold =>
    if m.holdPeriod ≤ m.holdCount ∨ (m.holdCount = m.holdOn ∧ m.holdOn < m.holdPeriod)
    then [.holdPulsePeriod r] else []
  | .gap => []
  | .purge => if m.phaseTime ≤ m.elapsed then [.purgeEnd r] else []
  | .recover => if m.phaseTime ≤ m.elapsed then [.recoverEnd r] else []

/-- The time counts of a mark after a period (R155, R156). A phase or a drive period that begins between two ends of the
free-running base counts the rest of that period as a whole one, so it can last up to 10 µs less than its time
(DESIGN CHOICE, notes/assumptions/38.md). -/
def Mark.aged (m : Mark) : Mark :=
  { m with elapsed := m.elapsed + 1, dashElapsed := m.dashElapsed + 1, holdCount := m.holdCount + 1 }

/-- An engine after a period: where a mark is painted its time counts rise, the rest of the period in which its phase
began counting as a whole one (DESIGN CHOICE, notes/assumptions/38.md). -/
def Engine.aged (e : Engine) : Engine :=
  match e.state with
  | .painting p m => { e with state := .painting p m.aged }
  | _ => e

/-- The events of an engine after a period. -/
def Engine.phaseEvents (e : Engine) (r : Rail) : List Instr :=
  match e.state with
  | .painting p m => Machine.phaseEvents r p m
  | _ => []

/-- The step timer after a period (R42). -/
def Sequencer.aged (q : Sequencer) : Sequencer := { q with stepTimer := q.stepTimer - 1 }

/-- The expiry of the step timer (R43). -/
def Sequencer.expiry (q : Sequencer) : List Instr :=
  match q.cycle with
  | .idle => []
  | .stepping _ => if q.stepTimer = 0 then [.stepTimerExpiry] else []

/-- The records whose deadline is reached, in slot order (R49). -/
def Sequencer.timeouts (q : Sequencer) (now : Nat) : List Instr :=
  (List.finRange 64).filterMap fun i =>
    if q.ring[i].outstanding && decide (q.ring[i].deadline ≤ now) then some (.firingRecordTimeout i) else none

/-- A period of the 10 µs base ends. -/
def State.age10us (s : State) : State :=
  (s.setSeq s.seq.aged).setMarker { s.marker with
    engines := { a := s.marker.engines.a.aged, b := s.marker.engines.b.aged } }

/-- What falls due at the end of a 10 µs period. -/
def State.due10us (s : State) : List Instr :=
  s.seq.expiry ++ s.seq.timeouts s.now10 ++ s.marker.engines.a.phaseEvents .a
    ++ s.marker.engines.b.phaseEvents .b

/-! ## The 1 ms base (R4, R9, R14, R40, R59) -/

/-- The timer of a lane after a period: it runs in SETUP and FAULT (R59). -/
def Lane.aged (l : Lane) : Lane :=
  match l.state with
  | .setup | .fault => { l with timer := min (l.timer + 1) 1000 }
  | .down | .ok => l

/-- The end of a lane's wait (R59). -/
def Lane.waitEnd (l : Lane) (r : Rail) (wait : Nat) : List Instr :=
  match l.state with
  | .setup => if wait ≤ l.timer then [.setupTimeout r] else []
  | .fault => if wait ≤ l.timer then [.retry r] else []
  | .down | .ok => []

/-- A period of the 1 ms base ends. -/
def State.age1ms (s : State) : State :=
  ((s.setOdo { s.odo with
      standstillTimer := min (s.odo.standstillTimer + 1) 2000, liftTimer := s.odo.liftTimer + 1 }).setSeq
    { s.seq with keepAliveTimer := if s.keepAliveRuns then min (s.seq.keepAliveTimer + 1) 1000 else 0 }).setLanes
    { a := s.lanes.a.aged, b := s.lanes.b.aged }

/-- What falls due at the end of a 1 ms period; every tenth ends a speed interval and every hundredth a slip
window (R4). -/
def State.due1ms (s : State) : List Instr :=
  (if !s.odo.standstill && decide (s.params.stillMs ≤ s.odo.standstillTimer) then [.standstillSet] else [])
    ++ (if s.keepAliveRuns && decide (s.params.keepaliveMs ≤ s.seq.keepAliveTimer) then [.keepaliveTrigger]
        else [])
    ++ s.lanes.a.waitEnd .a s.params.setupWaitMs ++ s.lanes.b.waitEnd .b s.params.setupWaitMs
    ++ (if s.params.liftFilter ≤ s.odo.liftTimer then [.liftSample s.pins.lift] else [])
    ++ (if s.samples % 80000 = 0 then [.speedIntervalEnd] else [])
    ++ (if s.samples % 800000 = 0 then [.slipWindowEnd] else [])

/-! ## The link's bit clock (R165, R167) -/

/-- The edge's place in its link frame; a frame is 2000 edges long and begins at the first edge. -/
def State.framePhase (s : State) : Nat := (s.samples + 1999) % 2000

/-- The bit of the frame in progress at a phase: 1024 bits in 2000 edges. -/
def bitAt (phase : Nat) : Nat := phase * 64 / 125

/-- The bit that begins at a phase, if one does. -/
def bitBegun (phase : Nat) : Option Nat :=
  if phase = 0 then some 0 else if bitAt phase = bitAt (phase - 1) then none else some (bitAt phase)

/-- A content bit is taken; at 57 bytes the frame is oversize (R167). Bits that a closing delimiter may still
take off count meanwhile (DESIGN CHOICE, notes/assumptions/36.md). -/
def Receiver.addBit (x : Receiver) (bit : Bool) (run : Nat) : Receiver × List Instr :=
  ({ x with content := x.content ++ [bit], recessiveRun := run },
    if x.content.length + 1 = 456 then [.oversize] else [])

/-- The content at the close: the recessive bits of the closing delimiter come off, and the dominant bit
before them unless it was a stuff bit (R167). -/
def Receiver.closed (x : Receiver) : List Bool :=
  x.content.take (x.content.length - (if x.dominantSeen then 5 else 4))

/-- What the receiver makes of one bit, true being recessive: its new state, and an event (R167). -/
def Receiver.takeBit (x : Receiver) (bit : Bool) : Receiver × List Instr :=
  match x.mode, bit with
  | .hunting, true => ({ x with recessiveRun := min (x.recessiveRun + 1) 6 }, [])
  | .hunting, false =>
    if x.dominantSeen && x.recessiveRun == 5 then (x, [.delimiter])
    else ({ x with recessiveRun := 0, dominantSeen := true }, [])
  | .receiving, true =>
    if x.recessiveRun = 5 then (x, [.abort])
    else if x.recessiveRun = 4 then ({ x with recessiveRun := 5 }, [])
    else x.addBit true (x.recessiveRun + 1)
  | .receiving, false =>
    if x.recessiveRun = 5 then (x, [.commandFrameReceived x.closed])
    else if x.recessiveRun = 4 then ({ x with recessiveRun := 0, dominantSeen := false }, [])
    else Receiver.addBit { x with dominantSeen := true } false 0

/-- The command lane is read at one bit of a command field: the field collects it, and outside break recovery
the receiver takes it (R167, R170). -/
def LinkState.readBit (l : LinkState) (bit : Bool) : LinkState × List Instr :=
  let field := (l.field <<< 1) ||| BitVec.ofNat 64 bit.toNat
  if l.recovery then ({ l with field := field }, [])
  else
    let (x, events) := l.receiver.takeBit bit
    ({ l with field := field, receiver := x }, events)

/-- The node whose report lane field holds a bit from 176 to 943 (11.6.1). -/
def laneAt (bit : Nat) : Node := if bit < 432 then .n1 else if bit < 688 then .n2 else .n3

/-- The byte of a report lane field that begins at a bit (11.6.1). -/
def laneByteAt (bit : Nat) : List Instr :=
  if 176 ≤ bit ∧ bit < 944 ∧ (bit - 176) % 8 = 0 then [.reportLaneByte (laneAt bit)] else []

/-- The events of the bit that begins, other than those of the command lane's bits (11.6.1). -/
def State.bitEvents (s : State) (bit : Nat) : List Instr :=
  (if bit = 0 then [.linkFrame] else [])
    ++ (if bit = 176 then [.commandFieldEnd s.link.field] else []) ++ laneByteAt bit

/-- The link at an edge. -/
def State.linkEdge (s : State) : State × List Instr :=
  match bitBegun s.framePhase with
  | none => (s, [])
  | some bit =>
    if 112 ≤ bit ∧ bit < 176 then
      let (l, events) := s.link.readBit s.pins.command
      (s.setLink l, events)
    else (s, s.bitEvents bit)

/-- Bit `i` of a byte string, every byte most significant bit first (R183). -/
def bitOf (bs : List Byte) (i : Nat) : Bool := (bs.getD (i / 8) 0).getMsbD (i % 8)

/-- The level of LK_DOUT at a bit of a frame (R165, 11.6.1): sync, broadcast, the report lanes, and low when
idle. In the command lane field the layout gives LK_DOUT no level (notes/assumptions/37.md). -/
def LinkState.doutBit (l : LinkState) (bit : Nat) : Option Bool :=
  if bit < 112 then some (bitOf (l.sync ++ l.broadcast) bit)
  else if bit < 176 then none
  else if bit < 944 then some (bitOf [(l.lanes.get (laneAt bit)).lastByte] ((bit - 176) % 8))
  else some false

/-- The output LK_DOUT, once the events of the bit that has begun are taken. While RESET_N is asserted the part
sends nothing (R165). -/
def State.lkDout (s : State) : Option Bool :=
  if s.held || s.samples == 0 then none else s.link.doutBit (bitAt s.framePhase)

/-! ## An edge of the sample clock -/

/-- What falls due at an edge once its encoder events are taken: a tick of the source restarts the standstill
timer, and STANDSTILL is not set (R9: the tick is taken first). -/
def State.afterTick (s : State) (timed : List Instr) : List Instr :=
  if s.encoderEvents.any fun i => i == .encoderTick s.odo.source .forward || i == .encoderTick s.odo.source .backward
  then timed.filter fun i => i != .standstillSet
  else timed

/-- The end of a period of a base that the edge brings: `n` edges make one period. -/
def State.endsPeriod (s : State) (n : Nat) : Bool := s.samples % n == 0

/-- The time bases at an edge, and what falls due. -/
def State.baseEdges (s : State) : State × List Instr :=
  let t := if s.endsPeriod 80 then s.age10us else s
  let u := if s.endsPeriod 8000 then t.age1ms else t
  (u, (if s.endsPeriod 80 then u.due10us else []) ++ (if s.endsPeriod 8000 then u.due1ms else []))

/-- One edge of the sample clock. -/
def State.edge (s : State) : State :=
  let t := { s.sampleInputs with samples := s.samples + 1 }
  let (u, timed) := t.baseEdges
  let (v, link) := u.linkEdge
  { v with pending := v.pending ++ s.encoderEvents ++ s.afterTick timed ++ link }

/-- The lane message at the head of those received, and the pins without it (R55). -/
def Pins.nextMessage (p : Pins) : Option (Instr × Pins) :=
  match p.received.a, p.received.b with
  | m :: rest, _ => some (laneCommand .a m, { p with received := { p.received with a := rest } })
  | [], m :: rest => some (laneCommand .b m, { p with received := { p.received with b := rest } })
  | [], [] => none

/-- What the part does with no command waiting. Held in cold reset, nothing (R31). -/
def State.idle (s : State) : State :=
  if s.held then s
  else
    match s.immediate with
    | some i => { s with pending := [i] }
    | none =>
      match s.pins.nextMessage with
      | some (i, p) => { s.setPins p with pending := [i] }
      | none => s.edge

end Sys2Proof.Machine
end

