-- ==== Sys2Proof/Machine/Step.lean ====
section
/-! DEFINITION. One step of the machine: the command at the front of the queue is executed on everything but
the queue's rest; with no command waiting, the part idles through its clock (`State.idle`). -/
namespace Sys2Proof.Machine

/-- The state with a command taken off the queue. -/
def State.withPending (s : State) (rest : List Instr) : State := { s with pending := rest }

/-- The step. -/
def step (s : State) : Host.Outcome State Fault Refusal :=
  match s.pending with
  | i :: rest => exec i (s.withPending rest)
  | [] => .next s.idle

/-- The state with the command a word spells at the front of its queue; unchanged where the word spells
none. -/
def State.withFetchWord (s : State) (nbits w : Nat) : State :=
  match decodeTableWord nbits w with
  | none => s
  | some i => s.withPending (i :: s.pending)

end Sys2Proof.Machine
end

