-- ==== Sys2Proof/Safety.lean ====
section
/-! DEFINITION. The vocabulary of the claims: which blocks of the state a step may change, and what the manual
promises of every state: the coordinates (R6, R7), the valves (R157), the windows and their tails (R89, R90,
R93), the zones (R112), the marker queues (R146), the firing records (R48) and the link's queues (R173,
R176). -/
namespace Sys2Proof.Machine

/-! ## Frames -/

/-- The blocks of the state, one for each field. -/
inductive Block where
  | held | odo | run | seq | lanes | probes | windows | zones | eval | marker | link | params | pins
  | samples | freeCtr | pending
  deriving DecidableEq, Repr

/-- Whether a block is the same in two states. -/
def Block.same (b : Block) (s t : State) : Prop :=
  match b with
  | .held => t.held = s.held
  | .odo => t.odo = s.odo
  | .run => t.run = s.run
  | .seq => t.seq = s.seq
  | .lanes => t.lanes = s.lanes
  | .probes => t.probes = s.probes
  | .windows => t.windows = s.windows
  | .zones => t.zones = s.zones
  | .eval => t.eval = s.eval
  | .marker => t.marker = s.marker
  | .link => t.link = s.link
  | .params => t.params = s.params
  | .pins => t.pins = s.pins
  | .samples => t.samples = s.samples
  | .freeCtr => t.freeCtr = s.freeCtr
  | .pending => t.pending = s.pending

/-- From `s` to `t` every block but those listed is unchanged. -/
def changesOnly (bs : List Block) (s t : State) : Prop := ∀ b : Block, b ∈ bs ∨ b.same s t

/-- A command has a next state that has the property `p`. -/
def answers (i : Instr) (s : State) (p : State → Prop) : Prop := ∃ t, exec i s = .next t ∧ p t

/-- The link once EVENTs are given to the report lanes one after another, with a CP (R17, R172). -/
def LinkState.told (l : LinkState) (cp : Int) (es : List Event) : LinkState :=
  es.foldl (fun m e => m.offer cp (.event cp e)) l

/-- Step `k` begun from a state: lane A's part, then lane B's, then the step timer in periods of 10 µs (R42). -/
def stepBegun (s : State) (k : Fin 16) : State :=
  let t := (s.lanePart k .a).lanePart k .b
  t.setSeq { t.seq with cycle := .stepping k.val, stepTimer := ((s.seq.steps[k]).listen + 9) / 10 }

/-- The SETUP messages of a transfer: one for each enabled probe of the lane, in ascending order, with its four gate
windows, the last with the final flag (R57). -/
def setupTransfer (number : Byte) (probes : Vector Probe 32) (r : Rail) : List LaneMessage :=
  let ps := (List.finRange 16).filter fun p => (probes[probeNo r p]).enabled
  ps.map fun p => .setup number p.val (decide (ps.getLast? = some p))
    (Vector.ofFn fun g : Fin 4 =>
      { start := ((probes[probeNo r p]).gates[g]).windowStart, width := ((probes[probeNo r p]).gates[g]).windowWidth })

/-- The report lanes may have taken records; everything else of the link is as it was, and each lane keeps its
pages, its subscription, its stage and its last byte. -/
def ReportLane.onlyRecords (x y : ReportLane) : Prop :=
  y.pages = x.pages ∧ y.kindMask = x.kindMask ∧ y.classMask = x.classMask ∧ y.stage = x.stage
    ∧ y.lastByte = x.lastByte

/-- From `l` to `m` nothing of the link but the records and tallies of the report lanes has changed. -/
def LinkState.onlyRecords (l m : LinkState) : Prop :=
  m = { l with lanes := m.lanes } ∧ l.lanes.n1.onlyRecords m.lanes.n1 ∧ l.lanes.n2.onlyRecords m.lanes.n2
    ∧ l.lanes.n3.onlyRecords m.lanes.n3

/-- The state once a suspension is, or is not, in effect as asked, with its cause (R118, R119, R123). -/
def State.suspendedTo (s : State) (suspended : Bool) (onset : SuspendBeginCause) (finish : SuspendEndCause) : State :=
  if suspended = s.run.suspension then s
  else if suspended then s.beginSuspension onset
  else s.endSuspension finish

/-- The Zone List once a suspension is, or is not, in effect as asked: its onset opens the SUSPEND zone and its end
finishes it (R118, R119). -/
def State.zonesWhen (s : State) (suspended : Bool) : ZoneList :=
  if suspended = s.run.suspension then s.zones
  else if suspended then (s.beginSuspension .lift).zones
  else (s.endSuspension .lift).zones

/-! ## Promises -/

/-- A property that every step keeps. -/
def keptByEveryStep (p : State → Prop) : Prop := ∀ s t : State, p s → step s = .next t → p t

/-- The coordinates lie in their range with CP at or below HW, LIMIT shows CP at an end, and RETRACE shows CP
below HW (0.7, R6, R7). -/
def coordinatesAgree (s : State) : Prop :=
  tickMin ≤ s.odo.cp ∧ s.odo.cp ≤ s.odo.hw ∧ s.odo.hw ≤ tickMax ∧ s.odo.limit = limitOf s.odo.cp
    ∧ s.odo.retrace = decide (s.odo.cp < s.odo.hw)

/-- The valves of an engine agree with its phase (R157). -/
def Engine.valvesAgree (e : Engine) : Prop :=
  (e.valves.colour0 = true → e.valves.colour1 = false) ∧
  match e.state with
  | .idle | .halted | .painting .gap _ | .painting .recover _ => e.valves = .off
  | .painting .purge _ => e.valves.colour0 = false ∧ e.valves.colour1 = false
  | .painting .pullin m | .painting .hold m =>
    e.valves.purge = false ∧ (e.valves.colour0 = true → m.shape.colour = false)
      ∧ (e.valves.colour1 = true → m.shape.colour = true)

/-- The valves of both rails agree with their engines' phases (R157). -/
def valvesAgree (s : State) : Prop := s.marker.engines.a.valvesAgree ∧ s.marker.engines.b.valvesAgree

/-- A group record keeps its bounds: counts of at most 15, and no band or peak without a hit (R90). -/
def GroupRecord.bounded (g : GroupRecord) : Prop :=
  g.hits ≤ 15 ∧ g.drops ≤ 15 ∧ (g.hits = 0 → g.bands = 0 ∧ g.peak = 0)

/-- Every group record of a window's open cells keeps its bounds (R90). -/
def Window.bounded (w : Window) : Prop := ∀ x ∈ w.cells, ∀ g : Fin 8, (x.groups[g]).bounded

/-- The open records of both windows are in canonical form and keep their bounds (R89, R90). -/
def windowsSound (s : State) : Prop :=
  s.windows.a.wf = true ∧ s.windows.b.wf = true ∧ s.windows.a.bounded ∧ s.windows.b.bounded

/-- A tail of `n` cells that ends at `k` − 1 with consecutive indices (R93). -/
def Window.tailAligned (w : Window) : Prop :=
  w.tail.length ≤ 7 ∧ w.tail.map ClosedCell.index =
    (List.range w.tail.length).map fun i : Nat => w.k - (w.tail.length : Int) + (i : Int)

/-- The tails of both windows hold at most seven cells, consecutive and ending at K − 1 (R93). -/
def tailsAligned (s : State) : Prop := s.windows.a.tailAligned ∧ s.windows.b.tailAligned

/-- The order of two zones that stand one before the other (R112). -/
def Zone.ordered (x y : Zone) : Prop := x.start < y.start ∨ (x.start = y.start ∧ x.id.toNat ≤ y.id.toNat)

/-- A zone's ticks lie in the 32-bit range, a zone with an end has start ≤ end, and only the SUSPEND zone may be
open (R112). -/
def Zone.sound (z : Zone) : Prop :=
  tickMin ≤ z.start ∧ z.start ≤ tickMax ∧
  match z.stop with
  | some e => z.start ≤ e ∧ e ≤ tickMax
  | none => z.kind = .suspend

/-- The Zone List: at most 16 MUTE zones and one SUSPEND zone, in order, each sound (R112). -/
def zonesSound (s : State) : Prop :=
  s.zones.muteCount ≤ 16 ∧ (s.zones.zones.filter fun z => !z.isMute).length ≤ 1
    ∧ s.zones.zones.Pairwise Zone.ordered ∧ ∀ z ∈ s.zones.zones, z.sound

/-- A marker queue: at most 16 entries in non-decreasing order of target (R146). -/
def queueSound (q : List MarkerEntry) : Prop := q.length ≤ 16 ∧ q.Pairwise fun x y => x.target ≤ y.target

/-- Both marker queues are sound (R146). -/
def queuesSound (s : State) : Prop :=
  queueSound s.marker.engines.a.queue ∧ queueSound s.marker.engines.b.queue

/-- Every outstanding firing record sits in the slot of its tag (R48). -/
def recordsInSlots (s : State) : Prop :=
  ∀ i : Fin 64, (s.seq.ring[i]).outstanding = true → ringSlot (s.seq.ring[i]).tag = i

/-- Queue Memory: four page counts of at least 1 that sum to 64, and no queue beyond its pages (R176). -/
def queueMemorySound (s : State) : Prop :=
  1 ≤ s.link.intakePages ∧ 1 ≤ s.link.lanes.n1.pages ∧ 1 ≤ s.link.lanes.n2.pages ∧ 1 ≤ s.link.lanes.n3.pages
    ∧ s.link.intakePages + s.link.lanes.n1.pages + s.link.lanes.n2.pages + s.link.lanes.n3.pages = 64
    ∧ s.link.intakeFill ≤ s.link.intakePages * 512 ∧ s.link.lanes.n1.fill ≤ s.link.lanes.n1.size
    ∧ s.link.lanes.n2.fill ≤ s.link.lanes.n2.size ∧ s.link.lanes.n3.fill ≤ s.link.lanes.n3.size

end Sys2Proof.Machine
end

