-- ==== Sys2Proof/Certificates/Slice0/Obligations.lean ====
section
/-! DEFINITION. The statements about the DN-62. Each names the rules it rests on; where one rests on a choice of
the model, its docstring says so and names the entry of notes/assumptions. -/

open Sys2Proof Sys2Proof.Machine

/-! ## The step and the resets -/

/-- A step executes the command at the front of the queue on the state that holds the queue's rest. -/
def Obligations.FrontCommandIsExecuted : Prop :=
  ∀ (i : Instr) (rest : List Instr) (s : State),
    step (s.withPending (i :: rest)) = exec i (s.withPending rest)

/-- With no command waiting a step does one of these (the model's choice, notes/assumptions/2.md): held, nothing;
it queues one event, changing nothing else; it takes up a message a front end has sent; or it lives through one
edge of the clock, which leaves the pins and ages the filters' run counts, the timers, the counts of a mark in
progress and the command receiver, may queue commands, and changes nothing else. -/
def Obligations.IdleStepOnlyAges : Prop :=
  ∀ s t : State, s.pending = [] → step s = .next t →
    (s.held = true ∧ t = s)
      ∨ (s.held = false ∧ ∃ i, t = { s with pending := [i] })
      ∨ (s.held = false ∧ ∃ r m rest, s.pins.received.get r = m :: rest
          ∧ t = { s with
              pins := { s.pins with received := s.pins.received.set r rest }, pending := [laneCommand r m] })
      ∨ (s.held = false ∧ t.samples = s.samples + 1
          ∧ changesOnly [.odo, .seq, .lanes, .marker, .link, .samples, .pending] s t
          ∧ { t.odo with
                enc1 := s.odo.enc1, enc2 := s.odo.enc2, standstillTimer := s.odo.standstillTimer
                liftTimer := s.odo.liftTimer } = s.odo
          ∧ (∀ e : Encoder, (t.odo.quadrature e).a.accepted = (s.odo.quadrature e).a.accepted
              ∧ (t.odo.quadrature e).b.accepted = (s.odo.quadrature e).b.accepted)
          ∧ { t.seq with keepAliveTimer := s.seq.keepAliveTimer, stepTimer := s.seq.stepTimer } = s.seq
          ∧ (∀ r : Rail, { t.lanes.get r with timer := (s.lanes.get r).timer } = s.lanes.get r)
          ∧ (∀ r : Rail, t.marker.engines.get r = s.marker.engines.get r
              ∨ ∃ p m, (s.marker.engines.get r).state = .painting p m
                  ∧ t.marker.engines.get r = { s.marker.engines.get r with
                      state := .painting p { m with
                        elapsed := m.elapsed + 1, dashElapsed := m.dashElapsed + 1
                        holdCount := m.holdCount + 1 } })
          ∧ t.marker.sprays = s.marker.sprays ∧ t.marker.lead = s.marker.lead
          ∧ { t.link with receiver := s.link.receiver, field := s.link.field } = s.link)

/-- RESET_N asserted holds the part with every valve off, and held no command but RESET_N itself does anything
(section 2.5); released, it is the machine right after reset but for the levels sampled and the model's own fields, with
the cold reset values of R19, R31, R36, R53, R72, R87, R110, R124, R144, R145, R164, R177 and the table of 11.4. That
every other command is without effect while held is the model's reading (notes/assumptions/9.md), and the fields the
manual gives no cold reset value hold the model's (notes/assumptions/1.md). -/
def Obligations.ColdResetHoldsAndReleases : Prop :=
  (∀ (i : Instr) (s : State), s.held = true → (∀ l, i ≠ .resetRelease l) → i ≠ .resetNAsserted →
    exec i s = .next s) ∧
  (∀ s : State, answers .resetNAsserted s fun t =>
    t.held = true ∧ t.marker.engines.a.valves = .off ∧ t.marker.engines.b.valves = .off
      ∧ changesOnly [.held, .marker] s t) ∧
  ∀ (l : InputLevels) (s : State), answers (.resetRelease l) s fun t =>
    t = { State.reset with
          odo := { State.reset.odo with
            enc1 := { a := { accepted := l.enc1A, run := 0 }, b := { accepted := l.enc1B, run := 0 } }
            enc2 := { a := { accepted := l.enc2A, run := 0 }, b := { accepted := l.enc2B, run := 0 } }
            lifted := l.lift, liftSample := l.lift }
          pins := { State.reset.pins with
            enc1A := l.enc1A, enc1B := l.enc1B, enc2A := l.enc2A, enc2B := l.enc2B, lift := l.lift }
          freeCtr := s.freeCtr, pending := s.pending }
      ∧ t.held = false ∧ t.pending = s.pending ∧ t.freeCtr = s.freeCtr
      ∧ t.odo.cp = 0 ∧ t.odo.hw = 0 ∧ t.odo.direction = .forward ∧ t.odo.source = .primary
      ∧ t.odo.speed = 0 ∧ t.odo.intervalCount = 0 ∧ t.odo.standstill = true
      ∧ t.odo.standstillTimer = t.params.stillMs ∧ t.odo.slip = false ∧ t.odo.retrace = false
      ∧ t.odo.limit = none ∧ t.odo.lifted = l.lift ∧ t.odo.deltaP = 0 ∧ t.odo.deltaS = 0
      ∧ t.odo.errorTally = 0 ∧ t.odo.mismatch = 0 ∧ t.odo.agreement = 0
      ∧ t.odo.enc1.a.accepted = l.enc1A ∧ t.odo.enc1.b.accepted = l.enc1B
      ∧ t.odo.enc2.a.accepted = l.enc2A ∧ t.odo.enc2.b.accepted = l.enc2B
      ∧ t.run.state = .stopped ∧ t.run.runNumber = 0 ∧ t.run.suspension = false ∧ t.run.generation = 0
      ∧ t.seq.cycle = .idle ∧ t.seq.tagCounter = 0 ∧ (∀ i : Fin 64, (t.seq.ring[i]).outstanding = false)
      ∧ (∀ r : Rail, (t.lanes.get r).state = .down ∧ (t.lanes.get r).setupNumber = 0
          ∧ (t.windows.get r).k = 0 ∧ (t.windows.get r).cells = [] ∧ (t.windows.get r).tail = []
          ∧ (t.marker.engines.get r).queue = [] ∧ (t.marker.engines.get r).state = .idle
          ∧ (t.marker.engines.get r).valves = .off)
      ∧ (∀ k : Fin 16, t.seq.steps[k] = { probeSet := 0, listen := 100 }) ∧ t.seq.lastTrigger = 0
      ∧ t.seq.keepAliveTimer = 0 ∧ t.seq.stepTimer = 0 ∧ t.seq.pendingTrigger = false
      ∧ t.seq.overspeed = false ∧ t.seq.overrun = false ∧ t.seq.stopping = false
      ∧ (∀ r : Rail, t.run.reach.get r = { least := 0, greatest := 0 } ∧ t.run.endK.get r = 0
          ∧ (∀ p : Fin 16, (t.lanes.get r).coupling[p] = { state := .unknown, absent := 0, present := 0 })
          ∧ (t.lanes.get r).timer = 0 ∧ (t.lanes.get r).incomplete = 0 ∧ (t.lanes.get r).txQueue = []
          ∧ (t.lanes.get r).corrupt = 0 ∧ (t.lanes.get r).stale = 0 ∧ (t.lanes.get r).unexpected = 0
          ∧ (t.lanes.get r).duplicate = 0
          ∧ (t.windows.get r).late = 0 ∧ (t.windows.get r).early = 0 ∧ (t.windows.get r).misplaced = 0
          ∧ (t.eval.gaps.get r).length = 0
          ∧ ∀ p : Fin 32, ((t.eval.runs.get r)[p]).length = 0 ∧ (t.eval.patterns[p]).enabled = false
              ∧ (t.probes[p]).enabled = false ∧ (t.probes[p]).delay = 0
              ∧ ∀ g : Fin 4, ((t.probes[p]).gates[g]).role = .off ∧ ((t.probes[p]).gates[g]).threshold = 255)
      ∧ t.run.reachAll = { least := 0, greatest := 0 } ∧ t.marker.lead = 0
      ∧ (∀ n : Fin 7, t.marker.sprays[n] =
          { dashCount := 1, dashLength := 40, gapLength := 40, colour := false, purge := true })
      ∧ t.params = {
          cellTicks := 4, fireSpacing := 6, stepCount := 0, keepaliveMs := 100, stillMs := 250,
          encFilter := 2, secondaryMode := .off, slipLimit := 20, liftFilter := 8, coupleLose := 8,
          coupleGain := 4, reportWaitUs := 200, setupWaitMs := 50, closeMargin := 64,
          bands := #v[80, 160, 240, 320, 480, 640, 800], required := { a := 0, b := 0 }, gapMin := 4,
          gunOffset := { a := -3000, b := -3000 }, valveLatencyUs := 8000,
          latePolicy := { a := .defer, b := .defer }, lateTol := 50, mergeTicks := 100, maxDashMs := 500,
          pullinMs := 6, holdPeriod := 19, holdDuty := 4, purgeMs := 40, recoverMs := 30 }
      ∧ t.zones.zones = [] ∧ t.zones.idCounter = 0
      ∧ t.eval.alert = { start := 0, rail := .a, cls := 0, count := 0 }
      ∧ t.link.receiver.mode = .hunting ∧ t.link.recovery = false ∧ t.link.dominantCount = 0
      ∧ t.link.oversize = 0 ∧ t.link.badNode = 0 ∧ t.link.badCheck = 0 ∧ t.link.badLength = 0
      ∧ t.link.noRoom = 0 ∧ t.link.aborts = 0
      ∧ (∀ n : Node, (t.link.lanes.get n).kindMask = 0b11011 ∧ (t.link.lanes.get n).classMask = 0xFFFF
          ∧ (t.link.lanes.get n).shed = 0 ∧ (t.link.lanes.get n).lost = 0
          ∧ (t.link.lanes.get n).firstLoss = 0 ∧ (t.link.lanes.get n).lastLoss = 0)
      ∧ t.link.nextFrame = 0 ∧ t.link.intake = [] ∧ t.link.intakePages = 4
      ∧ (∀ n : Node, (t.link.lanes.get n).records = [] ∧ (t.link.lanes.get n).stage = none
          ∧ (t.link.lanes.get n).pages = 20)

/-! ## Distance and direction -/

/-- A tick of the source (R5–R7, R9): CP moves by one and is held at the ends of its range, HW follows, and direction,
speed count, standstill, LIMIT and RETRACE are those the tick leaves, with an EVENT for each that changes. Where CP
changes, each engine counts the distance of its dash or gap (R155), the distance trigger is tested (R39, R44), the
close lines are followed (R91) and the due tests made (R149, R152). That no distance is counted in PURGE and RECOVER
is the model's choice (notes/assumptions/34.md), the order of the EVENTs and of these effects its reading (7.md). -/
def Obligations.SourceTickMovesCp : Prop :=
  ∀ (e : Encoder) (d : Direction) (s : State), s.held = false → e = s.odo.source →
    answers (.encoderTick e d) s fun t =>
      t.odo.cp = max tickMin (min (s.odo.cp + (match d with | .forward => 1 | .backward => -1)) tickMax)
        ∧ t.odo.hw = max s.odo.hw t.odo.cp ∧ t.odo.direction = d
        ∧ t.odo.intervalCount = s.odo.intervalCount + 1 ∧ t.odo.standstillTimer = 0
        ∧ t.odo.standstill = false ∧ t.odo.retrace = decide (t.odo.cp < t.odo.hw)
        ∧ (t.odo.limit = some .upper ↔ t.odo.cp = tickMax) ∧ (t.odo.limit = some .lower ↔ t.odo.cp = tickMin)
        ∧ t.odo.deltaP = s.odo.deltaP + (if e = .primary then tickSign d else 0)
        ∧ t.odo.deltaS = s.odo.deltaS + (if e = .secondary then tickSign d else 0)
        ∧ t.odo.source = s.odo.source ∧ t.odo.speed = s.odo.speed ∧ t.odo.slip = s.odo.slip
        ∧ t.odo.lifted = s.odo.lifted ∧ t.odo.errorTally = s.odo.errorTally
        ∧ t.marker.lead = s.marker.lead ∧ t.marker.sprays = s.marker.sprays
        ∧ t.seq.steps = s.seq.steps ∧ t.eval.patterns = s.eval.patterns
        ∧ (∀ r : Rail, (t.windows.get r).k =
            if t.odo.cp ≠ s.odo.cp ∧ s.run.state ≠ .stopped then
              max (s.windows.get r).k
                ((t.odo.cp + (s.run.reach.get r).least - s.params.closeMargin) / (s.params.cellTicks : Int))
            else (s.windows.get r).k)
        ∧ (if t.odo.cp ≠ s.odo.cp ∧ s.run.state = .running ∧ s.run.suspension = false
              ∧ s.params.fireSpacing ≤ (t.odo.cp - s.seq.lastTrigger).natAbs then
            t.seq.lastTrigger = t.odo.cp
              ∧ (s.seq.cycle = .idle → s.params.stepCount ≠ 0 →
                  t.seq.cycle = .stepping 0 ∧ t.seq.kind = .distance)
              ∧ (s.seq.cycle ≠ .idle → t.seq.cycle = s.seq.cycle ∧ t.seq.pendingTrigger = true
                  ∧ t.seq.overrun = (s.seq.overrun || s.seq.pendingTrigger))
          else t.seq.lastTrigger = s.seq.lastTrigger ∧ t.seq.cycle = s.seq.cycle
            ∧ t.seq.pendingTrigger = s.seq.pendingTrigger ∧ t.seq.ring = s.seq.ring)
        ∧ (∀ r : Rail, (t.marker.engines.get r).valves = (s.marker.engines.get r).valves
            ∧ (t.marker.engines.get r).state =
              (if t.odo.cp = s.odo.cp then (s.marker.engines.get r).state
              else match (s.marker.engines.get r).state with
                | .painting .pullin m => .painting .pullin { m with distance := m.distance + 1 }
                | .painting .hold m => .painting .hold { m with distance := m.distance + 1 }
                | .painting .gap m => .painting .gap { m with distance := m.distance + 1 }
                | x => x))
        ∧ (t.odo.cp ≠ s.odo.cp → ∀ (r : Rail) (x : MarkerEntry) (rest : List MarkerEntry),
            (t.marker.engines.get r).queue = x :: rest →
              (x.arming = .either → crossed x.side (t.gun r - t.firePoint x.target) = true → x.due = true)
                ∧ ¬ (x.arming = .normal ∧ s.params.latePolicy.get r = .drop
                    ∧ (s.params.lateTol : Int) < t.gun r - t.firePoint x.target))
        ∧ (∃ u : State, changesOnly [.odo, .seq, .link, .pins] s u ∧ u.odo = t.odo
            ∧ { u.seq with keepAliveTimer := s.seq.keepAliveTimer } = s.seq
            ∧ u.link = s.link.told t.odo.cp
                ((if t.odo.limit = s.odo.limit then []
                  else match t.odo.limit, s.odo.limit with
                    | some e, _ => [.limit true e]
                    | none, some e => [.limit false e]
                    | none, none => [])
                  ++ (if t.odo.retrace = s.odo.retrace then [] else [.retrace t.odo.retrace t.odo.hw])
                  ++ (if s.odo.standstill = true then [.standstill false] else []))
            ∧ t = if t.odo.cp = s.odo.cp then u
                else ((((u.countDistance .a).countDistance .b).testDistance.followCloseLine .a).followCloseLine
                  .b).dueTests)
        ∧ changesOnly [.odo, .seq, .lanes, .windows, .zones, .eval, .marker, .link, .pins] s t

/-- A tick of the other encoder reaches its window delta and no further (R2); an illegal transition turns both
levels, makes no tick and is counted (R3). -/
def Obligations.OtherEncoderEvents : Prop :=
  (∀ (e : Encoder) (d : Direction) (s : State), s.held = false → e ≠ s.odo.source →
    answers (.encoderTick e d) s fun t =>
      t.odo = (s.odo.setQuadrature e ((s.odo.quadrature e).ticked d)).addDelta e d
        ∧ changesOnly [.odo, .pins] s t) ∧
  ∀ (e : Encoder) (s : State), s.held = false → answers (.illegalTransition e) s fun t =>
    t.odo.cp = s.odo.cp ∧ t.odo.deltaP = s.odo.deltaP ∧ t.odo.deltaS = s.odo.deltaS
      ∧ (t.odo.quadrature e).a.accepted = !(s.odo.quadrature e).a.accepted
      ∧ (t.odo.quadrature e).b.accepted = !(s.odo.quadrature e).b.accepted
      ∧ (if e = .primary ∨ s.params.secondaryMode ≠ .off then
          t.odo.errorTally = min (s.odo.errorTally + 1) 65535
            ∧ t.odo.windowErrP = (if e = .primary then min (s.odo.windowErrP + 1) 65535 else s.odo.windowErrP)
            ∧ t.odo.windowErrS = (if e = .secondary then min (s.odo.windowErrS + 1) 65535 else s.odo.windowErrS)
        else t.odo.errorTally = s.odo.errorTally ∧ t.odo.windowErrP = s.odo.windowErrP
          ∧ t.odo.windowErrS = s.odo.windowErrS)
      ∧ changesOnly [.odo, .pins] s t

/-- STANDSTILL is set with speed 0 and lead 0 and its EVENT, and the due tests follow; while it is set the event changes
nothing (R9, R148, R149); that the EVENT stands before the records of the due tests is the model's reading
(notes/assumptions/7.md). At the end of a
speed interval speed is the count × 100, at most 65,535, the count is 0, and the lead is
floor(speed × VALVE_LATENCY_US / 1,000,000), at most 4095, and the due tests follow (R8, R148, R149). -/
def Obligations.SpeedAndStandstill : Prop :=
  (∀ s : State, s.held = false → answers .standstillSet s fun t =>
    if s.odo.standstill = true then t = s
    else
      t.odo.standstill = true ∧ t.odo.speed = 0 ∧ t.marker.lead = 0
        ∧ { t.odo with
              standstill := s.odo.standstill, speed := s.odo.speed
              standstillTimer := s.odo.standstillTimer } = s.odo
        ∧ t.marker.sprays = s.marker.sprays
        ∧ { t.seq with keepAliveTimer := s.seq.keepAliveTimer } = s.seq
        ∧ t = ({ s with
            odo := t.odo, seq := t.seq, marker := { s.marker with lead := 0 }
            link := s.link.told s.odo.cp [.standstill true] } : State).dueTests
        ∧ changesOnly [.odo, .seq, .marker, .link] s t) ∧
  ∀ s : State, s.held = false → answers .speedIntervalEnd s fun t =>
    t.odo = { s.odo with speed := min (s.odo.intervalCount * 100) 65535, intervalCount := 0 }
      ∧ t.marker.lead = min (t.odo.speed * s.params.valveLatencyUs / 1000000) 4095
      ∧ t.marker.sprays = s.marker.sprays
      ∧ t = ({ s with odo := t.odo, marker := { s.marker with lead := t.marker.lead } } : State).dueTests
      ∧ changesOnly [.odo, .marker, .link] s t

/-- A slip window is judged unless SECONDARY_MODE is OFF: streaks, SLIP and, in FAILOVER when SLIP becomes set,
the source (R10–R12); the deltas and error counts return to 0 (R3, R10). Each change of SLIP and of the source, and a
window with errors, gives its EVENT, in the order the model reads (notes/assumptions/7.md). -/
def Obligations.SlipWindowIsJudged : Prop :=
  ∀ s : State, s.held = false → answers .slipWindowEnd s fun t =>
    t.odo.deltaP = 0 ∧ t.odo.deltaS = 0 ∧ t.odo.windowErrP = 0 ∧ t.odo.windowErrS = 0
      ∧ t.odo.cp = s.odo.cp ∧ t.odo.hw = s.odo.hw ∧ t.odo.speed = s.odo.speed
      ∧ t.odo.errorTally = s.odo.errorTally ∧ changesOnly [.odo, .link] s t
      ∧ (if s.params.secondaryMode = .off then
          t.odo.mismatch = s.odo.mismatch ∧ t.odo.agreement = s.odo.agreement ∧ t.odo.slip = s.odo.slip
            ∧ t.odo.source = s.odo.source
        else
          t.odo.mismatch = (if s.params.slipLimit < (s.odo.deltaP - s.odo.deltaS).natAbs
              then min (s.odo.mismatch + 1) 3 else 0)
            ∧ t.odo.agreement = (if s.params.slipLimit < (s.odo.deltaP - s.odo.deltaS).natAbs
              then 0 else min (s.odo.agreement + 1) 10)
            ∧ t.odo.slip = (if s.odo.slip = false then decide (t.odo.mismatch = 3)
                else decide (t.odo.agreement ≠ 10))
            ∧ t.odo.source =
                (if s.params.secondaryMode = .failover ∧ s.odo.slip = false ∧ t.odo.slip = true then
                  (if s.odo.deltaP.natAbs < s.odo.deltaS.natAbs then .secondary
                   else if s.odo.deltaS.natAbs < s.odo.deltaP.natAbs then .primary else s.odo.source)
                else s.odo.source))
      ∧ t.link = s.link.told s.odo.cp
          ((if t.odo.slip = s.odo.slip then [] else [.slip t.odo.slip s.odo.deltaP s.odo.deltaS])
            ++ (if t.odo.source = s.odo.source then [] else [.source t.odo.source .failover])
            ++ (if s.odo.windowErrP = 0 ∧ s.odo.windowErrS = 0 then []
              else [.encoderError s.odo.windowErrP s.odo.windowErrS s.odo.errorTally]))

/-- A lift sample: LIFTED takes a level that two consecutive samples show, and a change of it judges suspension again,
with the SUSPEND zone opened or finished, and, when set, marks a cycle in progress to stop (R14, R26, R46, R118,
R119), with a LIFT EVENT and then, the order being the model's reading (7.md), the SUSPEND EVENT. The upper clamp of
the zone's start is the model's reading (notes/assumptions/20.md). -/
def Obligations.LiftSampleDebounces : Prop :=
  ∀ (v : Bool) (s : State), s.held = false → answers (.liftSample v) s fun t =>
    t.odo.liftSample = v ∧ t.odo.lifted = (if s.odo.liftSample = v then v else s.odo.lifted)
      ∧ { t.odo with
            liftSample := s.odo.liftSample, lifted := s.odo.lifted, liftTimer := s.odo.liftTimer } = s.odo
      ∧ t.run.state = s.run.state ∧ t.run.runNumber = s.run.runNumber
      ∧ t.run.generation = s.run.generation
      ∧ t.run.suspension = (if t.odo.lifted = s.odo.lifted then s.run.suspension
          else decide (s.run.state = .paused ∨ (s.run.state = .running ∧ v = true)))
      ∧ (t.odo.lifted ≠ s.odo.lifted → v = true → s.seq.cycle ≠ .idle → t.seq.stopping = true)
      ∧ t.seq.cycle = s.seq.cycle ∧ t.seq.ring = s.seq.ring ∧ t.zones = s.zonesWhen t.run.suspension
      ∧ t.link = (if t.odo.lifted = s.odo.lifted then s.link
          else (({ s with odo := t.odo, link := s.link.told s.odo.cp [.lift v] } : State).suspendedTo
            t.run.suspension .lift .lift).link)
      ∧ changesOnly [.odo, .run, .seq, .zones, .link, .pins] s t

/-! ## The firing sequence -/

/-- The keep-alive trigger: where the timer runs it restarts at 0 and begins a KEEPALIVE cycle from IDLE, with step
0's part of lane A, then that of lane B, and the step timer (R42), being dropped while a cycle is stepping (R40, R41,
R44). That the trigger is without effect where the timer does not run is the model's choice (notes/assumptions/4.md).
-/
def Obligations.KeepaliveBeginsCycle : Prop :=
  ∀ s : State, s.held = false → answers .keepaliveTrigger s fun t =>
    if s.odo.lifted = false ∧ ((s.run.state = .running ∧ s.odo.standstill = true) ∨ s.run.state = .paused) then
      t.seq.keepAliveTimer = 0 ∧ t.seq.lastTrigger = s.seq.lastTrigger
        ∧ t.seq.pendingTrigger = s.seq.pendingTrigger ∧ changesOnly [.seq, .lanes] s t
        ∧ (s.seq.cycle = .idle → s.params.stepCount ≠ 0 →
            t.seq.cycle = .stepping 0 ∧ t.seq.kind = .keepalive ∧ t.seq.overrun = false
              ∧ t.seq.stopping = false
              ∧ t.seq.stepTimer = ((s.seq.steps[(0 : Fin 16)]).listen + 9) / 10
              ∧ t = stepBegun (s.setSeq { s.seq with
                  keepAliveTimer := 0, kind := .keepalive, overrun := false, stopping := false }) 0)
        ∧ (s.seq.cycle = .idle → s.params.stepCount = 0 → t = s.setSeq { s.seq with keepAliveTimer := 0 })
        ∧ (s.seq.cycle ≠ .idle → t = s.setSeq { s.seq with keepAliveTimer := 0 })
    else t = s

/-- The end of a step: the next step begins, or the cycle ends, clearing OVERSPEED, with its EVENT, if no overrun
occurred and starting a DISTANCE cycle from a pending trigger where the conditions hold (R43, R45). A step begins with
lane A's part, then lane B's, and the step timer loaded with its listen time (R42). That the event is without
effect in IDLE is the model's choice (notes/assumptions/4.md), as it is that the cycle kind keeps its value where the
cycle ends without a new one (33.md); that the overrun and stopping marks keep theirs there too is its reading (13.md). -/
def Obligations.StepEndsOrCycleEnds : Prop :=
  ∀ s : State, s.held = false → s.params.stepCount ≤ 16 → answers .stepTimerExpiry s fun t =>
    changesOnly [.seq, .lanes, .link] s t ∧
    match s.seq.cycle with
    | .idle => t = s
    | .stepping k =>
      if s.seq.stopping = false ∧ k + 1 < s.params.stepCount then
        t.seq.cycle = .stepping (k + 1) ∧ t.seq.kind = s.seq.kind ∧ t.seq.overrun = s.seq.overrun
          ∧ t.seq.pendingTrigger = s.seq.pendingTrigger ∧ t.seq.overspeed = s.seq.overspeed
          ∧ (∀ j : Fin 16, j.val = k + 1 → t = stepBegun s j)
      else
        let ended : State := { s with
          seq := { s.seq with
            cycle := .idle, stepTimer := 0, pendingTrigger := false
            overspeed := s.seq.overspeed && s.seq.overrun }
          link := s.link.told s.odo.cp
            (if s.seq.overspeed = true ∧ s.seq.overrun = false then [.overspeed false 0 0] else []) }
        t.seq.overspeed = (s.seq.overspeed && s.seq.overrun) ∧ t.seq.pendingTrigger = false
          ∧ t.seq.lastTrigger = s.seq.lastTrigger
          ∧ (if s.seq.pendingTrigger = true ∧ s.run.state = .running ∧ s.run.suspension = false
                ∧ s.odo.standstill = false ∧ s.params.stepCount ≠ 0
              then t.seq.cycle = .stepping 0 ∧ t.seq.kind = .distance
                ∧ t = stepBegun (ended.setSeq { ended.seq with
                    kind := .distance, overrun := false, stopping := false }) 0
              else t.seq.cycle = .idle ∧ t = ended)

/-- The test of the distance trigger: at FIRE_SPACING ticks from the last trigger, in RUNNING without suspension or
STANDSTILL, a trigger starts a cycle, whose step 0 begins with lane A's part, then lane B's, and the step timer (R42),
becomes pending, or is an overrun, which sets OVERSPEED with an EVENT (R39, R41, R44, R45). -/
def Obligations.DistanceTriggerIsTested : Prop :=
  ∀ s : State,
    if s.run.state = .running ∧ s.run.suspension = false ∧ s.odo.standstill = false
        ∧ s.params.fireSpacing ≤ (s.odo.cp - s.seq.lastTrigger).natAbs then
      s.testDistance.seq.lastTrigger = s.odo.cp ∧ changesOnly [.seq, .lanes, .link] s s.testDistance ∧
      match s.seq.cycle with
      | .idle =>
        (s.params.stepCount = 0 → s.testDistance = s.setSeq { s.seq with lastTrigger := s.odo.cp })
          ∧ (s.params.stepCount ≠ 0 →
            s.testDistance.seq.cycle = .stepping 0 ∧ s.testDistance.seq.kind = .distance
              ∧ s.testDistance = stepBegun (s.setSeq { s.seq with
                  lastTrigger := s.odo.cp, kind := .distance, overrun := false, stopping := false }) 0)
      | .stepping k =>
        s.testDistance.seq.cycle = .stepping k ∧ s.testDistance.seq.pendingTrigger = true
          ∧ s.testDistance.seq.overrun = (s.seq.overrun || s.seq.pendingTrigger)
          ∧ s.testDistance.seq.overspeed = (s.seq.overspeed || s.seq.pendingTrigger)
          ∧ s.testDistance.lanes = s.lanes
          ∧ s.testDistance.link = s.link.told s.odo.cp
              (if s.seq.pendingTrigger = true ∧ s.seq.overspeed = false then [.overspeed true s.odo.speed k] else [])
    else s.testDistance = s

/-- A lane's part of a step: with an OK lane, enabled probes in the step and a FREE slot for the candidate tag, a
firing record is allocated in that slot with FP, deadline and expected mask, and its FIRE message queued; otherwise
the part is skipped and the counter keeps its value (R42, R48, R49). -/
def Obligations.LanePartIssuesOrder : Prop :=
  ∀ (k : Fin 16) (r : Rail) (s : State),
    (∀ p : Fin 16, (s.laneSet k r).getLsbD p.val =
        ((s.probes[probeNo r p]).enabled && (s.seq.steps[k]).probeSet.getLsbD (probeNo r p).val)) ∧
    if s.laneSet k r ≠ 0 ∧ (s.lanes.get r).state = .ok
        ∧ (s.seq.ring[ringSlot s.seq.tagCounter]).outstanding = false then
      s.lanePart k r =
        (s.setSeq { s.seq with
          tagCounter := s.seq.tagCounter + 1
          ring := s.seq.ring.set (ringSlot s.seq.tagCounter)
            { outstanding := true, tag := s.seq.tagCounter, lane := r, step := k.val, kind := s.seq.kind,
              fp := s.odo.cp, expected := s.laneSet k r, received := 0, issued := s.samples / 80,
              deadline := s.samples / 80 + ((s.seq.steps[k]).listen + 9) / 10
                + (s.params.reportWaitUs + 9) / 10 } }).setLane r
          { s.lanes.get r with
            txQueue := (s.lanes.get r).txQueue ++ [.fire s.seq.tagCounter (s.laneSet k r)] }
    else s.lanePart k r = s

/-- A record that reaches its deadline becomes FREE and adds an incomplete order to its lane, which faults at three
while OK, with a LANE_STATE EVENT; the last DISTANCE record released in DRAINING starts the drain before any command
that waits; a FREE slot is left alone (R30, R49, R60). That the drain is started through the queue is the model's
choice (notes/assumptions/32.md). That the event is without effect on a FREE slot is the model's choice
(notes/assumptions/4.md). -/
def Obligations.RecordTimesOut : Prop :=
  ∀ (i : Fin 64) (s : State), s.held = false → answers (.firingRecordTimeout i) s fun t =>
    if (s.seq.ring[i]).outstanding = false then t = s
    else
      (t.seq.ring[i]).outstanding = false ∧ (∀ j : Fin 64, j ≠ i → t.seq.ring[j] = s.seq.ring[j])
        ∧ { t.seq with ring := s.seq.ring } = s.seq
        ∧ (t.lanes.get (s.seq.ring[i]).lane).incomplete =
            min ((s.lanes.get (s.seq.ring[i]).lane).incomplete + 1) 3
        ∧ (t.lanes.get (s.seq.ring[i]).lane).state =
            (if (s.lanes.get (s.seq.ring[i]).lane).state = .ok
                ∧ 2 ≤ (s.lanes.get (s.seq.ring[i]).lane).incomplete
              then .fault else (s.lanes.get (s.seq.ring[i]).lane).state)
        ∧ (∀ r : Rail, r ≠ (s.seq.ring[i]).lane → t.lanes.get r = s.lanes.get r)
        ∧ t.link = s.link.told s.odo.cp
            (if (s.lanes.get (s.seq.ring[i]).lane).state = .ok ∧ 2 ≤ (s.lanes.get (s.seq.ring[i]).lane).incomplete
              then [.laneState (s.seq.ring[i]).lane .fault .ok (s.lanes.get (s.seq.ring[i]).lane).setupNumber
                .incompleteOrders]
              else [])
        ∧ t.pending =
            (if s.run.state = .draining ∧ (s.seq.ring[i]).kind = .distance
                ∧ ∀ j : Fin 64, j ≠ i → (s.seq.ring[j]).outstanding = true → (s.seq.ring[j]).kind ≠ .distance
              then .drain :: s.pending else s.pending)
        ∧ changesOnly [.seq, .lanes, .link, .pending] s t

/-! ## Front-end lanes -/

/-- Messages are sent whole from the head of the queue, SETUP in SETUP and FIRE in OK; a corrupt message is
counted (R55, R57). That a message is sent whole in one event is the model's choice (notes/assumptions/17.md).
-/
def Obligations.LaneMessagesAreSent : Prop :=
  ∀ (r : Rail) (s : State), s.held = false →
    (∀ number probe final windows rest, (s.lanes.get r).state = .setup →
      (s.lanes.get r).txQueue = .setup number probe final windows :: rest →
      exec (.setupMessageSent r) s = .next (s.setLane r { s.lanes.get r with
        txQueue := rest, sent := (LaneMessage.setup number probe final windows).bytes,
        setupSent := (s.lanes.get r).setupSent + 1, setupFinal := (s.lanes.get r).setupFinal || final })) ∧
    (∀ tag mask rest, (s.lanes.get r).state = .ok → (s.lanes.get r).txQueue = .fire tag mask :: rest →
      exec (.fireMessageSent r) s = .next (s.setLane r { s.lanes.get r with
        txQueue := rest, sent := (LaneMessage.fire tag mask).bytes })) ∧
    exec (.corruptMessage r) s = .next (s.setLane r { s.lanes.get r with
      corrupt := min ((s.lanes.get r).corrupt + 1) 65535 })

/-- A READY is taken in SETUP after the final SETUP when it carries the lane's number; any other is discarded as
unexpected (R58). -/
def Obligations.ReadyIsJudged : Prop :=
  ∀ (r : Rail) (number : Byte) (s : State), s.held = false →
    exec (.ready r number) s =
      if (s.lanes.get r).state = .setup ∧ (s.lanes.get r).setupFinal = true
          ∧ (s.lanes.get r).setupNumber = number then
        .next ((s.setLane r { s.lanes.get r with state := .ok, timer := 0, incomplete := 0 }).event
          (.laneState r .ok .setup number .ready))
      else .next (s.setLane r { s.lanes.get r with
        unexpected := min ((s.lanes.get r).unexpected + 1) 65535 })

/-- The lane timer's wait ends: from SETUP to FAULT with the transfer withdrawn, from FAULT to a fresh SETUP under the
next setup number, its SETUP messages queued, or to OK without an enabled probe (R57, R59), with the LANE_STATE EVENT
of each change. That each event is without effect in another lane state is the model's choice
(notes/assumptions/4.md). -/
def Obligations.LaneWaitEnds : Prop :=
  ∀ (r : Rail) (s : State), s.held = false →
    (answers (.setupTimeout r) s fun t =>
      if (s.lanes.get r).state = .setup then
        (t.lanes.get r).state = .fault ∧ (t.lanes.get r).timer = 0
          ∧ (t.lanes.get r).setupNumber = (s.lanes.get r).setupNumber
          ∧ (t.lanes.get r).txQueue = (s.lanes.get r).txQueue.filter (fun m => !m.isSetup)
          ∧ t.link = s.link.told s.odo.cp [.laneState r .fault .setup (s.lanes.get r).setupNumber .setupTimeout]
          ∧ (∀ q : Rail, q ≠ r → t.lanes.get q = s.lanes.get q) ∧ changesOnly [.lanes, .link] s t
      else t = s) ∧
    (answers (.retry r) s fun t =>
      if (s.lanes.get r).state = .fault then
        (t.lanes.get r).state = (if ∀ p : Fin 16, (s.probes[probeNo r p]).enabled = false then .ok else .setup)
          ∧ (t.lanes.get r).setupNumber = (s.lanes.get r).setupNumber + 1 ∧ (t.lanes.get r).setupSent = 0
          ∧ (t.lanes.get r).setupFinal = false ∧ (t.lanes.get r).timer = 0 ∧ (t.lanes.get r).incomplete = 0
          ∧ (∀ p : Fin 16, (t.lanes.get r).coupling[p] = { state := .unknown, absent := 0, present := 0 })
          ∧ (t.lanes.get r).txQueue = (s.lanes.get r).txQueue
              ++ setupTransfer ((s.lanes.get r).setupNumber + 1) s.probes r
          ∧ t.link = s.link.told s.odo.cp
              (.laneState r .setup .fault ((s.lanes.get r).setupNumber + 1) .retry
                :: if ∀ p : Fin 16, (s.probes[probeNo r p]).enabled = false
                  then [.laneState r .ok .setup ((s.lanes.get r).setupNumber + 1) .noProbes] else [])
          ∧ (∀ q : Rail, q ≠ r → t.lanes.get q = s.lanes.get q) ∧ changesOnly [.lanes, .link] s t
      else t = s)

/-- A REPORT is judged by slot and tag, lane, expected mask and received mask, in that order; a discarded one adds to
its lane's tally and a taken one adds its probe to the record, which is released when complete (R50, R62). A taken
report updates its probe's coupling record, with a COUPLING EVENT at a change of state (R69), and, admitted, hands its
coverage and hits to the window of its rail (R63, R65); the other rail is left alone; the release of the last DISTANCE
record in DRAINING starts the drain (R30). That a probe byte of 16 or more is unexpected is the model's reading
(notes/assumptions/27.md), that the drain is started through the queue its choice (notes/assumptions/32.md). -/
def Obligations.ReportIsMatched : Prop :=
  ∀ (r : Rail) (tag probe : Byte) (xs : Vector GateResult 4) (s : State), s.held = false →
    let x := s.seq.ring[ringSlot tag]
    let l := s.lanes.get r
    if x.outstanding = false ∨ x.tag ≠ tag then
      exec (.report r tag probe xs) s = .next (s.setLane r { l with stale := min (l.stale + 1) 65535 })
    else if x.lane ≠ r ∨ 16 ≤ probe.toNat ∨ x.expected.getLsbD probe.toNat = false then
      exec (.report r tag probe xs) s = .next (s.setLane r { l with unexpected := min (l.unexpected + 1) 65535 })
    else if x.received.getLsbD probe.toNat = true then
      exec (.report r tag probe xs) s = .next (s.setLane r { l with duplicate := min (l.duplicate + 1) 65535 })
    else
      answers (.report r tag probe xs) s fun t =>
        (t.seq.ring[ringSlot tag]).received = x.received ||| bit16 probe.toNat
          ∧ (t.seq.ring[ringSlot tag]).outstanding = decide (x.received ||| bit16 probe.toNat ≠ x.expected)
          ∧ (∀ j : Fin 64, j ≠ ringSlot tag → t.seq.ring[j] = s.seq.ring[j])
          ∧ { t.seq with ring := s.seq.ring } = s.seq
          ∧ (t.lanes.get r).incomplete =
              (if x.received ||| bit16 probe.toNat = x.expected then 0 else l.incomplete)
          ∧ (t.lanes.get r).state = l.state
          ∧ (let p : Fin 16 := ⟨probe.toNat % 16, Nat.mod_lt _ (by decide)⟩
            let c := (l.coupling[p]).after s.probes[probeNo r p] xs s.params.coupleLose s.params.coupleGain
            (t.lanes.get r).coupling[p] = c
              ∧ (∀ q : Fin 16, q ≠ p → (t.lanes.get r).coupling[q] = l.coupling[q])
              ∧ t.windows =
                (if x.kind = .distance ∧ c.state = .coupled ∧ l.state = .ok
                  then (s.handAll r p xs x.fp).windows else s.windows)
              ∧ (let told := s.link.told s.odo.cp (if c.state = (l.coupling[p]).state then []
                  else [.coupling (probeNo r p).val c.state (l.coupling[p]).state x.kind])
                t.link = (if x.kind = .distance ∧ c.state = .coupled ∧ l.state = .ok
                  then ((s.setLink told).handAll r p xs x.fp).link else told)))
          ∧ (∀ q : Rail, q ≠ r → t.lanes.get q = s.lanes.get q ∧ t.windows.get q = s.windows.get q)
          ∧ t.pending =
              (if x.received ||| bit16 probe.toNat = x.expected ∧ s.run.state = .draining ∧ x.kind = .distance
                  ∧ ∀ j : Fin 64, j ≠ ringSlot tag → (s.seq.ring[j]).outstanding = true →
                      (s.seq.ring[j]).kind ≠ .distance
                then .drain :: s.pending else s.pending)
          ∧ changesOnly [.seq, .lanes, .windows, .link, .pending] s t

/-- The coupling record after a taken report: the counts of R66, the state of R67 with both counts at 0 on a
change, and COUPLED from UNKNOWN for a probe without a COUPLING gate (R68). That a probe without a COUPLING gate
stays LOST is the model's reading (notes/assumptions/26.md). -/
def Obligations.CouplingFollowsReports : Prop :=
  ∀ (c : Coupling) (p : Probe) (xs : Vector GateResult 4) (lose gain : Nat), 1 ≤ lose → 1 ≤ gain →
    if ∀ g : Fin 4, (p.gates[g]).role ≠ .coupling then
      c.after p xs lose gain =
        (if c.state = .unknown then { state := .coupled, absent := 0, present := 0 } else c)
    else if ∀ g : Fin 4, (p.gates[g]).role = .coupling →
        (xs[g]).amplitude.toNat ≠ 0 ∧ (p.gates[g]).threshold ≤ (xs[g]).amplitude.toNat then
      c.after p xs lose gain =
        (if gain ≤ min (c.present + 1) 255 ∧ c.state ≠ .coupled then { state := .coupled, absent := 0, present := 0 }
        else { c with present := min (c.present + 1) 255, absent := 0 })
    else
      c.after p xs lose gain =
        (if lose ≤ min (c.absent + 1) 255 ∧ c.state ≠ .lost then { state := .lost, absent := 0, present := 0 }
        else { c with absent := min (c.absent + 1) 255, present := 0 })

/-- The gate outcomes of R64: a FLAW gate hits at or above its threshold with something in the gate, a DROP gate below
its threshold, OFF and COUPLING gates never. -/
def Obligations.GateOutcomesFollowRole : Prop :=
  ∀ (g : Gate) (x : GateResult),
    (gateHit g x = some .flaw ↔ g.role = .flaw ∧ x.amplitude ≠ 0 ∧ g.threshold ≤ x.amplitude.toNat)
      ∧ (gateHit g x = some .drop ↔ g.role = .drop ∧ x.amplitude.toNat < g.threshold)
      ∧ (gatePresent g x = true ↔ x.amplitude ≠ 0 ∧ g.threshold ≤ x.amplitude.toNat)

/-! ## Placement and the cell window -/

/-- A FLAW hit is placed by the six stages, a DROP hit at the coverage reference, with the exact arithmetic of R78 to
R84; a hit whose position leaves the 32-bit range adds to the misplaced tally and to nothing else (R80, R99). -/
def Obligations.HitsArePlaced : Prop :=
  ∀ (r : Rail) (p : Fin 16) (g : Fin 4) (x : GateResult) (fp : Int) (s : State),
    let entry := s.probes[probeNo r p]
    let e : Nat := x.time.toNat - entry.delay
    (s.placeFlaw r p g x fp).x = fp + entry.offset + (((e : Int) * entry.lead + 32768) / 65536)
      ∧ (s.placeFlaw r p g x fp).cell = (s.placeFlaw r p g x fp).x / (s.params.cellTicks : Int)
      ∧ (s.placeFlaw r p g x fp).depth = min (e * entry.depthFactor / 65536) 1023
      ∧ (s.placeFlaw r p g x fp).band =
          ((List.finRange 7).filter fun b => decide (s.params.bands[b] ≤ (s.placeFlaw r p g x fp).depth)).length
      ∧ (s.placeFlaw r p g x fp).amplitude = x.amplitude.toNat
      ∧ (s.placeDrop r p g x fp).x = fp + entry.offset + entry.shift
      ∧ (s.placeDrop r p g x fp).cell = (fp + entry.offset + entry.shift) / (s.params.cellTicks : Int)
      ∧ (s.placeDrop r p g x fp).depth = 0
      ∧ (s.placeDrop r p g x fp).band = (entry.gates[g]).dropBand.val
      ∧ ∀ h : PlacedHit, (h.x < tickMin ∨ tickMax < h.x) →
          s.handOn h = s.setWindow h.rail { s.windows.get h.rail with
            misplaced := min ((s.windows.get h.rail).misplaced + 1) 65535 }

/-- A handed hit is judged retrace, late, early, muted or entered; an entered one raises its group record alone and
offers its HIT record, and a coverage reference sets the covered flag of an open cell alone (R95–R98). An admitted
report hands on its coverage reference and then the hits of gates 0 to 3 in order, those in range to the window (R63,
R77, R85, R86). A zone that covers a hit's rail, group and position mutes it, the SUSPEND zone too (R95, R120); that the
open SUSPEND zone does not while PAUSED (R27) is the model's reading of the two (notes/assumptions/39.md). -/
def Obligations.ItemsEnterTheWindow : Prop :=
  ∀ (h : PlacedHit) (s : State),
    let w := s.windows.get h.rail
    let muted := ∃ z ∈ s.zones.zones, (z.kind = .suspend → z.stop = none → s.run.state ≠ .paused)
      ∧ holdsRail z.rails h.rail = true ∧ z.groups.getLsbD h.group.val = true
      ∧ z.start ≤ h.x ∧ (∀ e, z.stop = some e → h.x ≤ e)
    (h.cell < w.k → s.odo.retrace = true → s.enterHit h = s)
      ∧ (h.cell < w.k → s.odo.retrace = false →
          s.enterHit h = s.setWindow h.rail { w with late := min (w.late + 1) 65535 })
      ∧ (w.k + 1023 < h.cell → s.enterHit h = s.setWindow h.rail { w with early := min (w.early + 1) 65535 })
      ∧ (w.k ≤ h.cell → h.cell ≤ w.k + 1023 → muted → s.enterHit h = s)
      ∧ (w.k ≤ h.cell → h.cell ≤ w.k + 1023 → ¬ muted →
          (∀ r : Rail, r ≠ h.rail → (s.enterHit h).windows.get r = s.windows.get r)
            ∧ { (s.enterHit h).windows.get h.rail with cells := w.cells } = w
            ∧ (w.wf = true → ∀ c, c ≠ h.cell → ((s.enterHit h).windows.get h.rail).groups c = w.groups c)
            ∧ (w.wf = true → ∀ g, g ≠ h.group →
                (((s.enterHit h).windows.get h.rail).groups h.cell)[g] = (w.groups h.cell)[g])
            ∧ (w.wf = true → (((s.enterHit h).windows.get h.rail).groups h.cell)[h.group] =
                match h.kind with
                | .flaw => { (w.groups h.cell)[h.group] with
                    hits := min ((w.groups h.cell)[h.group].hits + 1) 15
                    bands := (w.groups h.cell)[h.group].bands ||| bit8 h.band
                    peak := max (w.groups h.cell)[h.group].peak h.amplitude }
                | .drop => { (w.groups h.cell)[h.group] with
                    drops := min ((w.groups h.cell)[h.group].drops + 1) 15 })
            ∧ (s.enterHit h).link = (s.emit (.hit {
                runNumber := s.run.runNumber, rail := h.rail, kind := h.kind, gate := h.gate, probe := h.probe
                group := h.group, band := h.band, x := h.x, cell := h.cell, depth := h.depth
                amplitude := h.amplitude })).link
            ∧ changesOnly [.windows, .link] s (s.enterHit h))
      ∧ (if w.k ≤ h.cell ∧ h.cell ≤ w.k + 1023 then
          w.wf = true →
            let u := s.enterCoverage h.rail h.group h.cell
            let w' := u.windows.get h.rail
            (w'.groups h.cell)[h.group] = { (w.groups h.cell)[h.group] with covered := true }
              ∧ (∀ g, g ≠ h.group → (w'.groups h.cell)[g] = (w.groups h.cell)[g])
              ∧ (∀ c, c ≠ h.cell → w'.groups c = w.groups c)
              ∧ { w' with cells := w.cells } = w
              ∧ (∀ r : Rail, r ≠ h.rail → u.windows.get r = s.windows.get r) ∧ changesOnly [.windows] s u
        else s.enterCoverage h.rail h.group h.cell = s)
      ∧ (tickMin ≤ h.x → h.x ≤ tickMax → s.handOn h = s.enterHit h)
      ∧ ∀ (r : Rail) (p : Fin 16) (xs : Vector GateResult 4) (fp : Int),
          let entry := s.probes[probeNo r p]
          let x := fp + entry.offset + entry.shift
          let hand := fun (u : State) (g : Fin 4) =>
            match gateHit entry.gates[g] xs[g] with
            | none => u
            | some .flaw => u.handOn (s.placeFlaw r p g xs[g] fp)
            | some .drop => u.handOn (s.placeDrop r p g xs[g] fp)
          let covered := if tickMin ≤ x ∧ x ≤ tickMax
            then s.enterCoverage r entry.group (x / (s.params.cellTicks : Int)) else s
          s.handAll r p xs fp = hand (hand (hand (hand covered 0) 1) 2) 3

/-- Closing cell K: the record joins the tail with its muted mask, the groups that a zone overlapping the cell covers
(R94), and its drain flag, of eight the oldest leaving; K rises by one, the cell's slot is empty, every other open
cell keeps its record, and so does the other window (R92, R93). Then each zone with its end below the close tick of
every rail it covers expires (R116), and cell K − 3, if it was closed in this run, is evaluated against the patterns
in ascending order and for a gap (R93, R128). -/
def Obligations.CellCloses : Prop :=
  ∀ (r : Rail) (d : Bool) (s : State), (s.windows.get r).wf = true →
    let w := s.windows.get r
    let w' := (s.closeCell r d).windows.get r
    let closed : ClosedCell := ClosedCell.mk w.k (w.groups w.k) (s.zones.mutedMask r s.params.cellTicks w.k)
      (d && decide (s.run.endK.get r ≤ w.k))
    let all := w.tail ++ [closed]
    (∀ g : Fin 8, closed.muted.getLsbD g.val = true ↔ ∃ z ∈ s.zones.zones, holdsRail z.rails r = true
        ∧ z.groups.getLsbD g.val = true ∧ z.start ≤ w.k * (s.params.cellTicks : Int) + s.params.cellTicks - 1
        ∧ ∀ e, z.stop = some e → w.k * (s.params.cellTicks : Int) ≤ e)
      ∧ w'.k = w.k + 1 ∧ w'.opening = w.opening ∧ w'.late = w.late ∧ w'.early = w.early
      ∧ w'.misplaced = w.misplaced ∧ w'.groups w.k = CellGroups.empty
      ∧ (∀ c, c ≠ w.k → w'.groups c = w.groups c)
      ∧ w'.tail = (if 7 < all.length then all.tail else all)
      ∧ (∀ q : Rail, q ≠ r → (s.closeCell r d).windows.get q = s.windows.get q)
      ∧ (∃ u : State, changesOnly [.windows, .zones] s u ∧ u.windows = (s.closeCell r d).windows
          ∧ u.zones.idCounter = s.zones.idCounter
          ∧ (∃ keep : Zone → Bool, u.zones.zones = s.zones.zones.filter keep
              ∧ ∀ z, keep z = false ↔ ∃ e, z.stop = some e ∧ ∀ q : Rail, holdsRail z.rails q = true →
                  e < (u.windows.get q).k * (s.params.cellTicks : Int))
          ∧ s.closeCell r d =
              if w.opening ≤ w.k - 3 then
                ((List.finRange 32).foldl (fun v p => v.evalPattern r (w.k - 3) p) u).evalGap r (w.k - 3)
              else u)
      ∧ changesOnly [.windows, .zones, .eval, .marker, .link] s (s.closeCell r d)

/-- The drain: each window ends three cells above its highest cell with content, both lanes are DOWN and the run state
is STOPPED; without DRAINING, or with a DISTANCE record outstanding, nothing happens (R30, R61, R105). Each lane that
goes DOWN gives its LANE_STATE EVENT and the run its RUN_STATE EVENT, behind the records of the closed cells; the
order of these three is the model's reading (notes/assumptions/7.md). That the event is without effect elsewhere is
the model's choice (4.md). -/
def Obligations.DrainEndsTheRun : Prop :=
  ∀ s : State, s.held = false → windowsSound s → answers .drain s fun t =>
    if s.run.state = .draining
        ∧ ∀ i : Fin 64, (s.seq.ring[i]).outstanding = true → (s.seq.ring[i]).kind ≠ .distance then
      t.run = { s.run with state := .stopped }
        ∧ (∀ r : Rail, (t.windows.get r).k = (s.windows.get r).highest + 4 ∧ (t.windows.get r).cells = []
            ∧ (t.lanes.get r).state = .down
            ∧ (t.lanes.get r).coupling = (s.lanes.get r).coupling
            ∧ (t.eval.gaps.get r).length = 0
            ∧ ∀ p : Fin 32, ((t.eval.runs.get r)[p]).length = 0)
        ∧ (let down := fun r : Rail => if (s.lanes.get r).state = .down then []
            else [Event.laneState r .down (s.lanes.get r).state (s.lanes.get r).setupNumber .drainEnd]
          t.link = ((s.drainRail .a).drainRail .b).link.told s.odo.cp
            (down .a ++ down .b ++ [.runState .stopped .draining s.run.runNumber .drainEnd]))
        ∧ changesOnly [.run, .lanes, .windows, .zones, .eval, .marker, .link] s t
    else t = s

/-! ## Evaluation -/

/-- One pattern's part of an evaluation: a match extends the run by the cell's own record, the sixty-fourth cell
issues the FINDING of the run capped and closes it, and a cell that does not match closes the run, with a FINDING if
it has reached the minimum run, as the flush does; a pattern not evaluated on the rail keeps its run (R131–R134). A
FINDING carries its run's fields and is offered after its marker offer and alert update (R136). A pattern matches a
cell where each term is satisfied in a closed cell at most its spread away, a cell below the opening index or not in
the tail being empty (R93, R128–R130). That the due test follows every FINDING, whatever its
disposition, is the model's reading (notes/assumptions/8.md), as is what a closed run holds beside its length 0 (21.md). -/
def Obligations.PatternRunFollowsCells : Prop :=
  ∀ (r : Rail) (c : Int) (p : Fin 32) (s : State),
    let w := s.windows.get r
    let old := (s.eval.runs.get r)[p]
    let gs := (w.closedAt c).groups
    let t := s.evalPattern r c p
    let none' : PatternRun := { length := 0, start := 0, groupsSeen := 0, peak := 0, peakBand := 0, hitTotal := 0 }
    let ended := s.setPatternRun r p none'
    let closed := if old.length ≠ 0 ∧ (s.eval.patterns[p]).minRun ≤ old.length
      then ended.issueFinding r p old false else ended
    (if (s.eval.patterns[p]).enabled = true ∧ holdsRail (s.eval.patterns[p]).rails r = true then
      (∀ q : Fin 32, q ≠ p → (t.eval.runs.get r)[q] = (s.eval.runs.get r)[q])
        ∧ changesOnly [.eval, .marker, .link] s t
        ∧ (if (s.eval.patterns[p]).matchesAt w c = true then
            ∃ run : PatternRun, run.length = old.length + 1
              ∧ run.start = (if old.length = 0 then c else old.start)
              ∧ run.hitTotal = min ((if old.length = 0 then 0 else old.hitTotal) + hitSum gs) 65535
              ∧ run.peak = max (if old.length = 0 then 0 else old.peak) (topPeak gs)
              ∧ (∀ g : Fin 8, (gs[g]).peak ≤ topPeak gs)
              ∧ (if (if old.length = 0 then 0 else old.peak) < topPeak gs then
                  (∀ (g : Fin 8) (b : Fin 8), (gs[g]).peak = topPeak gs → (gs[g]).bands.getLsbD b.val = true →
                    b.val ≤ run.peakBand)
                  ∧ (run.peakBand = 0 ∨ ∃ g : Fin 8, (gs[g]).peak = topPeak gs
                      ∧ (gs[g]).bands.getLsbD run.peakBand = true)
                else run.peakBand = if old.length = 0 then 0 else old.peakBand)
              ∧ (∀ g : Fin 8, run.groupsSeen.getLsbD g.val =
                  ((if old.length = 0 then false else old.groupsSeen.getLsbD g.val)
                    || decide (0 < (gs[g]).hits)))
              ∧ (if old.length + 1 = 64 then
                  t = ended.issueFinding r p run true ∧ ((t.eval.runs.get r)[p]).length = 0
                else t = s.setPatternRun r p run ∧ (t.eval.runs.get r)[p] = run)
          else t = closed ∧ ((t.eval.runs.get r)[p]).length = 0)
    else t = s)
      ∧ s.endRunOf r p = closed
      ∧ ((s.eval.patterns[p]).matchesAt w c = true ↔ ∀ u ∈ (s.eval.patterns[p]).terms, ∃ j : Int,
          c - (s.eval.patterns[p]).spread ≤ j ∧ j ≤ c + (s.eval.patterns[p]).spread ∧
          let x : GroupRecord := ((w.closedAt j).groups)[u.group]
          match u.kind with
          | .flaw => u.minCount ≤ x.hits ∧ (∃ b : Fin 8, x.bands.getLsbD b.val = true ∧ u.bands.getLsbD b.val = true)
              ∧ u.minAmplitude ≤ x.peak
          | .drop => u.minCount ≤ x.drops)
      ∧ (∀ j : Int, (j < w.opening ∨ ∀ x ∈ w.tail, x.index ≠ j) →
          w.closedAt j = { index := j, groups := CellGroups.empty, muted := 0, drain := false })
      ∧ (∀ x ∈ w.tail, w.opening ≤ x.index → (∀ y ∈ w.tail, y.index = x.index → y = x) → w.closedAt x.index = x)
      ∧ ∀ (run : PatternRun) (capped : Bool), ∃ (u : State) (f : Finding),
          s.issueFinding r p run capped = (u.emit (.finding f)).dueTest r ∧ changesOnly [.eval, .marker] s u
            ∧ f.rail = r ∧ f.pattern = p ∧ f.capped = capped ∧ f.startCell = run.start ∧ f.length = run.length
            ∧ f.startTick = satTick (run.start * s.params.cellTicks) ∧ f.groupsSeen = run.groupsSeen
            ∧ f.peak = run.peak ∧ f.peakBand = run.peakBand ∧ f.hitTotal = run.hitTotal
            ∧ f.cls = (s.eval.patterns[p]).cls ∧ f.urgent = (s.eval.patterns[p]).urgent
            ∧ f.spray = (s.eval.patterns[p]).spray ∧ f.runNumber = s.run.runNumber ∧ f.cp = s.odo.cp
            ∧ f.generation = s.run.generation
            ∧ u.eval.alert = (if (s.eval.patterns[p]).urgent = true
                then { start := f.startTick, rail := r, cls := f.cls, count := s.eval.alert.count + 1 }
                else s.eval.alert)
            ∧ (match f.spray with
              | none => f.disposition = .none ∧ u.marker = s.marker
              | some n => f.disposition = s.offerVerdict r f.startTick n
                  ∧ u.marker = (s.takeOffer r f.startTick n f.cls).marker)

/-- The gap judgement of a cell: missing groups open or extend the run, the cell number 1024 issues its GAP capped and
closes it, and a drain cell or a cell with nothing missing closes it, with a GAP if it has reached GAP_MIN, as the
flush does (R139–R141). What a closed gap run holds beside its length 0 is the model's reading
(notes/assumptions/21.md). -/
def Obligations.GapRunFollowsCells : Prop :=
  ∀ (r : Rail) (c : Int) (s : State),
    let x := (s.windows.get r).closedAt c
    let g := s.eval.gaps.get r
    let missing := missingGroups (s.params.required.get r) x
    let g' := (s.evalGap r c).eval.gaps.get r
    let longer : GapRun := { length := g.length + 1, start := if g.length = 0 then c else g.start,
                             missing := if g.length = 0 then missing else g.missing ||| missing }
    let gapOf := fun (y : GapRun) (capped : Bool) => Record.gap {
      runNumber := s.run.runNumber, rail := r, capped := capped, startCell := y.start, length := y.length,
      missing := y.missing, cp := s.odo.cp }
    let ended := s.setGapRun r { g with length := 0 }
    let closed := if g.length ≠ 0 ∧ s.params.gapMin ≤ g.length then ended.emit (gapOf g false) else ended
    (∀ n : Fin 8, missing.getLsbD n.val = ((s.params.required.get r).getLsbD n.val && !(x.groups[n]).covered
        && !x.muted.getLsbD n.val))
      ∧ (if x.drain = true ∨ missing = 0 then g'.length = 0 ∧ s.evalGap r c = closed
        else if g.length + 1 = 1024 then g'.length = 0
          ∧ s.evalGap r c = (s.setGapRun r { longer with length := 0 }).emit (gapOf longer true)
        else g' = longer ∧ s.evalGap r c = s.setGapRun r longer)
      ∧ s.endGap r = closed
      ∧ (∀ q : Rail, q ≠ r → (s.evalGap r c).eval.gaps.get q = s.eval.gaps.get q)
      ∧ (s.evalGap r c).eval.runs = s.eval.runs ∧ (s.evalGap r c).eval.alert = s.eval.alert
      ∧ changesOnly [.eval, .link] s (s.evalGap r c)

/-- A finding updates the alert record if its pattern is urgent (R137), and its marker offer is merged with a tail of
its spray pattern within MERGE_TICKS, refused by a full queue, or queued after every entry at or below it (R147). -/
def Obligations.FindingAlertsAndOffers : Prop :=
  (∀ (r : Rail) (p : Fin 32) (run : PatternRun) (capped : Bool) (s : State),
    (s.issueFinding r p run capped).eval.alert =
      if (s.eval.patterns[p]).urgent = true then
        { start := satTick (run.start * s.params.cellTicks), rail := r, cls := (s.eval.patterns[p]).cls,
          count := s.eval.alert.count + 1 }
      else s.eval.alert) ∧
  ∀ (r : Rail) (target : Int) (spray : Fin 7) (cls : Fin 16) (s : State),
    let q := (s.marker.engines.get r).queue
    let q' := ((s.takeOffer r target spray cls).marker.engines.get r).queue
    (s.offerVerdict r target spray =
      if ∃ e, q.getLast? = some e ∧ e.spray = spray ∧ e.target ≤ target
          ∧ target ≤ e.target + s.params.mergeTicks then .merged
      else if 16 ≤ q.length then .queueFull else .queued)
      ∧ (s.offerVerdict r target spray = .queued →
          ∃ u v, q = u ++ v ∧ q' = u ++ offeredEntry target spray cls :: v ∧ (∀ e ∈ u, e.target ≤ target)
            ∧ (∀ e ∈ v.head?, target < e.target))
      ∧ (s.offerVerdict r target spray ≠ .queued → s.takeOffer r target spray cls = s)

/-! ## Marking -/

/-- The IDLE engine and its due head: within LATE_TOL the head leaves the queue and is painted from a copy of its
spray pattern, with a MARK record FIRED; a later one halts the engine under HALT and is dropped otherwise; with no due
head, or a busy engine, nothing happens (R150–R153). The due test of a rail (R149, R152): under DROP each due head
later than LATE_TOL is removed with a MARK record DROPPED_LATE, and the head that is left is latched if it is EITHER.
That the event is without effect with no due head is the model's choice (notes/assumptions/4.md). -/
def Obligations.HeadIsTaken : Prop :=
  (∀ (r : Rail) (s : State), ∃ dropped kept, (s.marker.engines.get r).queue = dropped ++ kept
    ∧ (∀ e ∈ dropped, s.params.latePolicy.get r = .drop ∧ e.arming = .normal
        ∧ (s.params.lateTol : Int) < s.gun r - s.firePoint e.target)
    ∧ (∀ e rest, kept = e :: rest → ¬ (s.params.latePolicy.get r = .drop ∧ e.arming = .normal
        ∧ (s.params.lateTol : Int) < s.gun r - s.firePoint e.target))
    ∧ s.dueTest r = (dropped.foldl (fun u e => u.emit (.mark {
          runNumber := s.run.runNumber, rail := r, outcome := .droppedLate, origin := e.origin,
          target := e.target, spray := e.spray, cls := e.cls, arming := .normal, g := s.gun r,
          lateness := s.gun r - s.firePoint e.target, cp := s.odo.cp })) s).setQueue r
        (match kept with
        | [] => []
        | e :: rest =>
          (match e.arming with
          | .normal => e
          | .either => { e with due := e.due || crossed e.side (s.gun r - s.firePoint e.target) }) :: rest)) ∧
  ∀ (r : Rail) (e : MarkerEntry) (rest : List MarkerEntry) (s : State), s.held = false →
    (s.marker.engines.get r).queue = e :: rest → answers (.headTaken r) s fun t =>
      if (s.marker.engines.get r).state = .idle ∧ s.isDue r e = true then
        (∀ q : Rail, q ≠ r → t.marker.engines.get q = s.marker.engines.get q)
          ∧ t.marker.sprays = s.marker.sprays ∧ t.marker.lead = s.marker.lead
          ∧ changesOnly [.marker, .link] s t
          ∧ (if s.lateness r e ≤ s.params.lateTol then
              ∃ m, (t.marker.engines.get r).state = .painting .pullin m ∧ m.target = e.target
                ∧ m.shape = s.marker.sprays[e.spray] ∧ m.dash = 1 ∧ m.distance = 0
                ∧ (t.marker.engines.get r).queue = (((s.setQueue r rest).dueTest r).marker.engines.get r).queue
                ∧ t.link = (((s.setQueue r rest).emit (s.markRecord r .fired e (s.lateness r e))).dueTest r).link
                ∧ (t.marker.engines.get r).valves =
                    { colour0 := !m.shape.colour, colour1 := m.shape.colour, purge := false }
            else if s.params.latePolicy.get r = .halt then
              (t.marker.engines.get r).state = .halted ∧ (t.marker.engines.get r).queue = e :: rest
                ∧ (t.marker.engines.get r).valves = .off
                ∧ t.link = (s.emit (s.markRecord r .halted e (s.lateness r e))).link
            else (t.marker.engines.get r).state = .idle ∧ (t.marker.engines.get r).queue.length ≤ rest.length
              ∧ t = ((s.setQueue r rest).emit (s.markRecord r .droppedLate e (s.lateness r e))).dueTest r)
      else t = s

/-- PULLIN ends in HOLD with the colour valve on and the pulse of HOLD_PERIOD and HOLD_DUTY; a pulse edge turns the
valve off after the on-time and on with the next period (R155, R156). -/
def Obligations.HoldIsPulsed : Prop :=
  ∀ (r : Rail) (m : Mark) (s : State), s.held = false →
    ((s.marker.engines.get r).state = .painting .pullin m →
      exec (.pullinEnd r) s = .next (s.setEngine r { s.marker.engines.get r with
        state := .painting .hold { m with
          elapsed := 0, holdPeriod := s.params.holdPeriod + 1, holdCount := 0
          holdOn := max 1 ((s.params.holdPeriod + 1) * s.params.holdDuty / 8) }
        valves := { colour0 := !m.shape.colour, colour1 := m.shape.colour, purge := false } })) ∧
    ((s.marker.engines.get r).state = .painting .hold m → answers (.holdPulsePeriod r) s fun t =>
      (∃ n, (t.marker.engines.get r).state = .painting .hold { m with holdCount := n })
        ∧ (t.marker.engines.get r).valves =
          (if (s.marker.engines.get r).valves = colourValve m ∧ m.holdOn < m.holdPeriod
            then .off else colourValve m)
        ∧ (t.marker.engines.get r).queue = (s.marker.engines.get r).queue
        ∧ (∀ q : Rail, q ≠ r → t.marker.engines.get q = s.marker.engines.get q)
        ∧ changesOnly [.marker] s t)

/-- The phases of a mark follow the table of R155: HOLD to GAP while dashes remain and else to PURGE or RECOVER, GAP
to the next PULLIN, PURGE to RECOVER, RECOVER to IDLE, with the valves of each phase (R155, R157). The mark keeps its
target, shape and origin, the other engine stays, and the queue too but for the due test in IDLE (R149). That the dash in progress
stays the one just ended in GAP, PURGE and RECOVER is the model's choice (notes/assumptions/41.md). -/
def Obligations.PhasesFollowTheTable : Prop :=
  ∀ (r : Rail) (m : Mark) (s : State), s.held = false →
    let others := fun t : State => (∀ q : Rail, q ≠ r → t.marker.engines.get q = s.marker.engines.get q)
      ∧ t.marker.sprays = s.marker.sprays ∧ t.marker.lead = s.marker.lead
    let paints := fun (t : State) (phase : PaintPhase) (periods : Nat) (v : Valves) =>
      t.link = s.link ∧ ∃ d : Nat, t.marker.engines.get r = {
        queue := (s.marker.engines.get r).queue, valves := v
        state := .painting phase { m with distance := d, elapsed := 0, phaseTime := periods } }
    let idles := fun t : State => (t.marker.engines.get r).state = .idle ∧ (t.marker.engines.get r).valves = .off
      ∧ (t.marker.engines.get r).queue = ((s.dueTest r).marker.engines.get r).queue
      ∧ t.link = (s.dueTest r).link
    ((s.marker.engines.get r).state = .painting .hold m → answers (.holdEnd r) s fun t =>
      changesOnly [.marker, .link] s t ∧ others t ∧
      if m.dash < m.shape.dashCount then
        t.link = s.link ∧ t.marker.engines.get r = {
          queue := (s.marker.engines.get r).queue, valves := .off
          state := .painting .gap { m with distance := 0, elapsed := 0, phaseTime := 100 * s.params.maxDashMs } }
      else if m.shape.purge = true ∧ 0 < s.params.purgeMs then
        paints t .purge (100 * s.params.purgeMs) { colour0 := false, colour1 := false, purge := true }
      else if 0 < s.params.recoverMs then paints t .recover (100 * s.params.recoverMs) .off
      else idles t) ∧
    ((s.marker.engines.get r).state = .painting .gap m → answers (.gapEnd r) s fun t =>
      changesOnly [.marker] s t ∧ others t ∧ t.marker.engines.get r = {
        queue := (s.marker.engines.get r).queue
        valves := { colour0 := !m.shape.colour, colour1 := m.shape.colour, purge := false }
        state := .painting .pullin { m with
          dash := m.dash + 1, distance := 0, elapsed := 0, dashElapsed := 0
          phaseTime := 100 * s.params.pullinMs, dashTime := 100 * s.params.maxDashMs } }) ∧
    ((s.marker.engines.get r).state = .painting .purge m → answers (.purgeEnd r) s fun t =>
      changesOnly [.marker, .link] s t ∧ others t ∧
      if 0 < s.params.recoverMs then paints t .recover (100 * s.params.recoverMs) .off else idles t) ∧
    ((s.marker.engines.get r).state = .painting .recover m → answers (.recoverEnd r) s fun t =>
      changesOnly [.marker, .link] s t ∧ others t ∧ idles t)

/-- MARKER_RESUME (R154) on either row: RANGE for a rail or an action outside its values, STATE unless HALTED; SKIP
removes the head with a MARK record SKIPPED, RETRY keeps it re-armed as EITHER with its side, and the engine enters
IDLE with its valves off and makes the due test; with an empty queue both only enter IDLE. The REPLY is OK with the
phase. The two rows, their common judgement, and the phase IDLE in the REPLY, a due head being taken by an event of
its own after the command, are the model's reading (notes/assumptions/10.md). -/
def Obligations.MarkerResumeReleases : Prop :=
  ∀ (h : Sender) (a : MarkerResumeArgs) (i : Instr) (s : State), s.held = false →
    i = .markerResumeRetry h (.fields a) ∨ i = .markerResumeSkip h (.fields a) →
    match railOf a.rail with
    | none => exec i s = .next ((s.take h 0x28).refuse h 0x28 .range)
    | some r =>
      if 1 < a.action.toNat then exec i s = .next ((s.take h 0x28).refuse h 0x28 .range)
      else if (s.marker.engines.get r).state ≠ .halted then
        exec i s = .next ((s.take h 0x28).refuse h 0x28 .state)
      else answers i s fun t =>
        (t.marker.engines.get r).state = .idle ∧ (t.marker.engines.get r).valves = .off
          ∧ (∀ q : Rail, q ≠ r → t.marker.engines.get q = s.marker.engines.get q)
          ∧ t.marker.sprays = s.marker.sprays ∧ t.marker.lead = s.marker.lead
          ∧ (match (s.marker.engines.get r).queue with
            | [] => (t.marker.engines.get r).queue = []
                ∧ t.link = ((s.take h 0x28).reply h 0x28 .ok (u8 0)).link
            | e :: rest =>
              if a.action = 0 then
                (t.marker.engines.get r).queue = { e with
                  arming := .either
                  due := decide (s.gun r = s.firePoint e.target)
                  side := if s.gun r < s.firePoint e.target then some .below
                    else if s.firePoint e.target < s.gun r then some .above else none } :: rest
                  ∧ t.link = ((s.take h 0x28).reply h 0x28 .ok (u8 0)).link
              else
                (t.marker.engines.get r).queue = (((s.setQueue r rest).dueTest r).marker.engines.get r).queue
                  ∧ t.link = ((((((s.take h 0x28).setQueue r rest).emit (.mark {
                      runNumber := s.run.runNumber, rail := r, outcome := .skipped, origin := e.origin
                      target := e.target, spray := e.spray, cls := e.cls, arming := e.arming, g := s.gun r
                      lateness := 0, cp := s.odo.cp })).dueTest r)).reply h 0x28 .ok (u8 0)).link)
          ∧ changesOnly [.marker, .link] s t

/-- MARKER_TEST on an IDLE engine begins PULLIN of dash 1 of a mark of origin TEST at the gun, its colour valve on, with
a MARK record TEST_FIRED of lateness 0 and class 0, and is BUSY elsewhere (R157, R159, R161); the arming of the test mark
is free (notes/assumptions/5.md). MARKER_CANCEL removes the queue from head to tail with a MARK record CANCELLED for each
entry and answers their number (R160, R161); it cuts the mark into PURGE, the purge valve on, or into RECOVER or IDLE, all
valves off, the mark keeping its target, shape and origin (R157, R160). That the cut mark keeps its dash number and counts
distance from 0 is the model's choice (notes/assumptions/34.md, 41.md); a RECOVER_MS of 0 returns the engine to IDLE as
RECOVER begins (R155). -/
def Obligations.MarkerTestAndCancel : Prop :=
  (∀ (h : Sender) (a : MarkerTestArgs) (s : State), s.held = false →
    match railOf a.rail, sprayOf a.spray with
    | some r, some n =>
      if (s.marker.engines.get r).state = .idle then
        answers (.markerTest h (.fields a)) s fun t =>
          (∃ m, t.marker.engines.get r = { s.marker.engines.get r with
                state := .painting .pullin m
                valves := { colour0 := !(s.marker.sprays[n]).colour, colour1 := (s.marker.sprays[n]).colour
                            purge := false } }
              ∧ m.origin = .test ∧ m.target = s.gun r ∧ m.spray = n ∧ m.cls = 0
              ∧ m.shape = s.marker.sprays[n] ∧ m.dash = 1
              ∧ m.distance = 0 ∧ m.elapsed = 0 ∧ m.dashElapsed = 0
              ∧ t.link = (((s.take h 0x29).emit (.mark {
                  runNumber := s.run.runNumber, rail := r, outcome := .testFired, origin := .test
                  target := s.gun r, spray := n, cls := 0, arming := m.arming, g := s.gun r
                  lateness := 0, cp := s.odo.cp })).reply h 0x29 .ok []).link)
            ∧ (∀ q : Rail, q ≠ r → t.marker.engines.get q = s.marker.engines.get q)
            ∧ t.marker.sprays = s.marker.sprays ∧ t.marker.lead = s.marker.lead
            ∧ changesOnly [.marker, .link, .freeCtr] s t
      else exec (.markerTest h (.fields a)) s = .next ((s.take h 0x29).refuse h 0x29 .busy)
    | _, _ => exec (.markerTest h (.fields a)) s = .next ((s.take h 0x29).refuse h 0x29 .range)) ∧
  ∀ (h : Sender) (b : Byte) (s : State), s.held = false →
    match railOf b with
    | none => exec (.markerCancel h (.fields b)) s = .next ((s.take h 0x2A).refuse h 0x2A .range)
    | some r => answers (.markerCancel h (.fields b)) s fun t =>
        let old := s.marker.engines.get r
        let new := t.marker.engines.get r
        new.queue = []
          ∧ t.link = ((old.queue.foldl (fun u e => u.emit (.mark {
              runNumber := s.run.runNumber, rail := r, outcome := .cancelled, origin := e.origin
              target := e.target, spray := e.spray, cls := e.cls, arming := e.arming, g := s.gun r
              lateness := 0, cp := s.odo.cp })) (s.take h 0x2A)).reply h 0x2A .ok (u8 old.queue.length)).link
          ∧ (∀ q : Rail, q ≠ r → t.marker.engines.get q = s.marker.engines.get q)
          ∧ t.marker.sprays = s.marker.sprays ∧ t.marker.lead = s.marker.lead
          ∧ changesOnly [.marker, .link] s t ∧
          match old.state with
          | .idle | .painting .purge _ | .painting .recover _ => new.state = old.state ∧ new.valves = old.valves
          | .halted => new.state = .idle ∧ new.valves = .off
          | .painting _ m =>
            if m.shape.purge = true ∧ 0 < s.params.purgeMs then
              new.valves = { colour0 := false, colour1 := false, purge := true }
                ∧ new.state = .painting .purge { m with
                    distance := 0, elapsed := 0, phaseTime := s.params.purgeMs * 100 }
            else
              new.valves = .off ∧ new.state =
                if 0 < s.params.recoverMs then .painting .recover { m with
                    distance := 0, elapsed := 0, phaseTime := s.params.recoverMs * 100 }
                else .idle

/-! ## The Carriage Link -/

/-- A link frame begins: the frame number advances, the sync 0xF0B4 is sent and a broadcast of 12 bytes is sampled,
with CP, speed, the condition summary and the frame number with GATE in its fixed part, and the rotating item of the
frame number (R165, R166, 11.6.1, 11.6.2). LK_DOUT carries sync, broadcast and lane bytes most significant bit first
and is low when idle; that the 1024 bits of a frame lie over 2000 edges of the sample clock, the first frame beginning
at the first edge, is the model's choice (notes/assumptions/2.md), that LK_DOUT has no level in the command field and
before the first edge its reading (37.md), as is the place of the two bytes of items 12 and 15 (30.md); a LIMIT end
shown while LIMIT is clear is free (notes/assumptions/5.md). -/
def Obligations.LinkFrameIsSampled : Prop :=
  (∀ s : State, s.held = false → answers .linkFrame s fun t =>
    let b := t.link.broadcast
    let summary := b.getD 6 0
    t.link = { s.link with
        nextFrame := s.link.nextFrame + 1, sync := [0xF0, 0xB4], broadcast := t.link.broadcast }
      ∧ b.length = 12
      ∧ b.take 6 = i32 s.odo.cp ++ u16 s.odo.speed
      ∧ summary.toNat / 64 =
        (match s.run.state with | .stopped => 0 | .running => 1 | .paused => 2 | .draining => 3)
      ∧ summary.getLsbD 5 = decide (s.odo.direction = .backward) ∧ summary.getLsbD 4 = s.odo.standstill
      ∧ summary.getLsbD 3 = s.odo.retrace ∧ summary.getLsbD 2 = s.odo.lifted
      ∧ summary.getLsbD 1 = s.run.suspension ∧ summary.getLsbD 0 = false
      ∧ b[7]? = some (BitVec.ofNat 8 (16 * s.link.nextFrame.val
          + (if s.link.intakeFill + 64 ≤ s.link.intakePages * 512 ∧ s.link.recovery = false then 8 else 0)))
      ∧ (match s.link.nextFrame.val with
        | 0 => b.drop 8 = i32 s.odo.hw
        | 1 => b.drop 8 = i32 s.windows.a.k
        | 2 => b.drop 8 = i32 s.windows.b.k
        | 3 => b.drop 8 = u16 s.lanes.a.coupledMask.toNat ++ u8 s.lanes.a.state.code ++ [s.lanes.a.setupNumber]
        | 4 => b.drop 8 = u16 s.lanes.b.coupledMask.toNat ++ u8 s.lanes.b.state.code ++ [s.lanes.b.setupNumber]
        | 5 => ∃ word limit : Byte,
            b.drop 8 = [word, limit, BitVec.ofNat 8 s.zones.muteCount, BitVec.ofNat 8 s.zones.suspendSlot]
              ∧ word.getLsbD 7 = s.odo.standstill ∧ word.getLsbD 6 = s.odo.slip
              ∧ word.getLsbD 5 = decide (s.odo.source = .secondary) ∧ word.getLsbD 4 = s.odo.retrace
              ∧ word.getLsbD 3 = s.odo.limit.isSome ∧ word.getLsbD 2 = s.seq.overspeed
              ∧ word.getLsbD 1 = s.odo.lifted ∧ word.getLsbD 0 = s.run.suspension
              ∧ (s.odo.limit = some .upper → limit = 0) ∧ (s.odo.limit = some .lower → limit = 1)
        | 6 => b.drop 8 = i32 s.eval.alert.start
        | 7 => b.drop 8 = [s.eval.alert.count, if s.eval.alert.rail = .b then 1 else 0,
            BitVec.ofNat 8 s.eval.alert.cls.val, 0]
        | 8 => b.drop 8 = u8 s.marker.engines.a.state.code ++ u8 s.marker.engines.a.queue.length
            ++ u8 s.marker.engines.b.state.code ++ u8 s.marker.engines.b.queue.length
        | 9 => b.drop 8 = u16 s.windows.a.late ++ u16 s.windows.a.early
        | 10 => b.drop 8 = u16 s.windows.b.late ++ u16 s.windows.b.early
        | 11 => b.drop 8 = u8 ((s.link.intakeFill + 511) / 512) ++ u8 ((s.link.lanes.n1.fill + 511) / 512)
            ++ u8 ((s.link.lanes.n2.fill + 511) / 512) ++ u8 ((s.link.lanes.n3.fill + 511) / 512)
        | 12 => b.drop 8 = u16 s.odo.errorTally ++ [0, 0]
        | 13 => b.drop 8 = u16 s.run.runNumber.toNat ++ u8 s.run.state.code ++ [0]
        | 14 => b.drop 8 = u8 (s.seq.outstanding .a) ++ u8 (s.seq.outstanding .b) ++ [s.seq.tagCounter, 0]
        | _ => b.drop 8 = u16 s.run.generation.toNat ++ [0, 0])
      ∧ (∀ (r : Rail) (p : Fin 16), (s.lanes.get r).coupledMask.getLsbD p.val =
          decide (((s.lanes.get r).coupling[p]).state = .coupled))
      ∧ changesOnly [.link, .freeCtr] s t) ∧
  (∀ s : State, s.lkDout =
    if s.held = true ∨ s.samples = 0 then none
    else s.link.doutBit ((s.samples + 1999) % 2000 * 64 / 125)) ∧
  ∀ (l : LinkState) (bit : Nat), l.sync = [0xF0, 0xB4] → l.broadcast.length = 12 → bit < 1024 →
    l.doutBit bit =
      if bit < 16 then some ((0xF0B4 : BitVec 16).getMsbD bit)
      else if bit < 112 then some ((l.broadcast.getD ((bit - 16) / 8) 0).getMsbD (bit % 8))
      else if bit < 176 then none
      else if bit < 432 then some (l.lanes.n1.lastByte.getMsbD (bit % 8))
      else if bit < 688 then some (l.lanes.n2.lastByte.getMsbD (bit % 8))
      else if bit < 944 then some (l.lanes.n3.lastByte.getMsbD (bit % 8))
      else some false

/-- A byte of a report lane field: the next byte of the record in the stage, or the first byte of the head record as
it moves to the stage, or FILL; a lane so emptied with a tally non-zero queues its LOSS record (R171, R174). Its pages
and its subscription stay; that the CPs of its losses stay too is the model's reading (notes/assumptions/28.md). -/
def Obligations.LaneByteIsSent : Prop :=
  ∀ (n : Node) (s : State), s.held = false → answers (.reportLaneByte n) s fun t =>
    let l := s.link.lanes.get n
    let l' := t.link.lanes.get n
    (∀ m : Node, m ≠ n → t.link.lanes.get m = s.link.lanes.get m)
      ∧ { t.link with lanes := s.link.lanes } = s.link ∧ changesOnly [.link] s t ∧
      match l.stage, l.records with
      | some (r, k), _ => l' = { l with
          lastByte := r.bytes.getD k 0, stage := if k + 1 < r.size then some (r, k + 1) else none }
      | none, [] => l' = { l with lastByte := 0 }
      | none, r :: rest => l'.lastByte = r.bytes.getD 0 0 ∧ l'.stage = some (r, 1)
          ∧ l'.records = (if rest = [] ∧ (l.shed ≠ 0 ∨ l.lost ≠ 0)
              then [.loss l.shed l.lost l.firstLoss l.lastLoss] else rest)
          ∧ l' = { l with
              lastByte := l'.lastByte, stage := l'.stage, records := l'.records
              shed := if rest = [] then 0 else l.shed, lost := if rest = [] then 0 else l.lost }

/-- A closed command frame is judged in the order of R168 and either discarded with one tally raised or appended whole
to the intake; the receiver returns to HUNTING (R167, R168). That it has then seen nothing, so that the closing
delimiter does not open the next frame, is the model's reading (notes/assumptions/16.md). -/
def Obligations.CommandFrameIsJudged : Prop :=
  ∀ (content : List Bool) (s : State), s.held = false → s.link.receiver.mode = .receiving →
    s.link.recovery = false → answers (.commandFrameReceived content) s fun t =>
      changesOnly [.link] s t ∧ t.link.receiver.mode = .hunting ∧
      match bytesOfBits content with
      | none => t.link = { s.link with receiver := .hunting, badLength := min (s.link.badLength + 1) 65535 }
      | some bs =>
        t.link =
          if bs.length < 6 then
            { s.link with receiver := .hunting, badLength := min (s.link.badLength + 1) 65535 }
          else if (bs.getD 0 0).toNat / 32 % 4 = 0 then
            { s.link with receiver := .hunting, badNode := min (s.link.badNode + 1) 65535 }
          else if bs.drop (bs.length - 2) ≠ u16 (crc16 (bs.take (bs.length - 2))).toNat then
            { s.link with receiver := .hunting, badCheck := min (s.link.badCheck + 1) 65535 }
          else if 50 < (bs.getD 3 0).toNat ∨ bs.length ≠ 4 + (bs.getD 3 0).toNat + 2 then
            { s.link with receiver := .hunting, badLength := min (s.link.badLength + 1) 65535 }
          else if s.link.intakePages * 512 < s.link.intakeFill + bs.length then
            { s.link with receiver := .hunting, noRoom := min (s.link.noRoom + 1) 65535 }
          else { s.link with receiver := .hunting, intake := s.link.intake ++ [bs] }

/-- The receiver and the command fields: a delimiter opens an empty frame, an abort and an oversize frame are
discarded and counted (R167); a dominant field adds to the count, any other zeroes it, a wholly recessive one ends
break recovery, and at a count of 8 the link break comes next: a warm reset into break recovery (R170, R32). That the
link break comes through the queue, and that each event is without effect in the other mode or in break recovery, are
the model's choices (notes/assumptions/32.md, 4.md), and that the receiver has seen nothing after an abort or an
oversize frame is its reading (16.md). -/
def Obligations.ReceiverAndBreaks : Prop :=
  ∀ s : State, s.held = false →
    (exec .delimiter s = .next (if s.link.receiver.mode = .hunting ∧ s.link.recovery = false then s.setLink
      { s.link with
        receiver := { mode := .receiving, content := [], recessiveRun := 0, dominantSeen := false } } else s)) ∧
    (exec .abort s = .next (if s.link.receiver.mode = .receiving ∧ s.link.recovery = false then
        s.setLink { s.link with receiver := .hunting, aborts := min (s.link.aborts + 1) 65535 } else s)) ∧
    (exec .oversize s = .next (if s.link.receiver.mode = .receiving ∧ s.link.recovery = false then
        s.setLink { s.link with receiver := .hunting, oversize := min (s.link.oversize + 1) 65535 } else s)) ∧
    (∀ field : BitVec 64,
      let l :=
        if s.link.recovery = true then
          (if field = BitVec.allOnes 64 then { s.link with recovery := false, receiver := .hunting } else s.link)
        else if field = 0 then { s.link with dominantCount := min (s.link.dominantCount + 1) 8 }
        else { s.link with dominantCount := 0 }
      exec (.commandFieldEnd field) s = .next (if 8 ≤ l.dominantCount ∧ l.recovery = false
        then { s with link := l, pending := .linkBreak :: s.pending } else { s with link := l })) ∧
    (s.link.recovery = true → exec .linkBreak s = .next s) ∧
    (s.link.recovery = false → exec .linkBreak s = .next (s.warmReset .linkBreak) ∧ answers .linkBreak s fun t =>
      t.link.recovery = true ∧ t.link.dominantCount = 0 ∧ t.link.receiver.mode = .hunting
        ∧ t.link.intake = [] ∧ t.run.state = .stopped ∧ t.run.suspension = false ∧ t.odo = s.odo
        ∧ t.params = s.params ∧ t.probes = s.probes ∧ t.seq.cycle = .idle
        ∧ (∀ i : Fin 64, (t.seq.ring[i]).outstanding = false) ∧ t.zones.zones = []
        ∧ (∀ r : Rail, t.marker.engines.get r = { queue := [], state := .idle, valves := .off }
            ∧ (t.lanes.get r).state = .down ∧ (t.windows.get r).k = 0 ∧ (t.windows.get r).cells = []
            ∧ (t.windows.get r).tail = [] ∧ (t.eval.gaps.get r).length = 0
            ∧ ∀ p : Fin 32, ((t.eval.runs.get r)[p]).length = 0)
        ∧ (∀ n : Node, 1 ≤ (s.link.lanes.get n).pages → (t.link.lanes.get n).records =
            [.event s.odo.cp (.warmReset s.run.state s.run.runNumber .linkBreak)])
        ∧ t.pending = s.pending)

/-- A record at a report lane: a HIT is queued below three quarters of the size and else shed; any other is queued
while it leaves the 16-byte reserve and else lost; a lane that owes a LOSS record queues it first (R173, R174). A
block's record goes to each lane whose kind mask holds its kind, and for a FINDING whose class mask holds its class,
and changes nothing else; a REPLY goes to the lane of its sender (R172). That the CPs of the losses stay when the LOSS
record is queued is the model's reading (notes/assumptions/28.md). -/
def Obligations.LaneJudgesRecords : Prop :=
  (∀ (r : Record) (s : State),
    (∀ n : Node, (s.emit r).link.lanes.get n =
      if (match r with
        | .finding f => (s.link.lanes.get n).kindMask.getLsbD 0 && (s.link.lanes.get n).classMask.getLsbD f.cls.val
        | .gap _ => (s.link.lanes.get n).kindMask.getLsbD 1
        | .hit _ => (s.link.lanes.get n).kindMask.getLsbD 2
        | .mark _ => (s.link.lanes.get n).kindMask.getLsbD 3
        | .event .. => (s.link.lanes.get n).kindMask.getLsbD 4
        | .reply .. | .loss .. => false) = true
      then (s.link.lanes.get n).accept s.odo.cp r else s.link.lanes.get n)
      ∧ { (s.emit r).link with lanes := s.link.lanes } = s.link ∧ changesOnly [.link] s (s.emit r)
      ∧ ∀ e, r = .event s.odo.cp e → s.event e = s.emit r ∧ (s.emit r).link = s.link.told s.odo.cp [e]) ∧
  (∀ (h : Sender) (code : Byte) (result : Result) (data : List Byte) (s : State),
    let t := s.reply h code result data
    t.link.lanes.get h.node = (s.link.lanes.get h.node).accept s.odo.cp (.reply h.tag code result data)
      ∧ (∀ n : Node, n ≠ h.node → t.link.lanes.get n = s.link.lanes.get n)
      ∧ { t.link with lanes := s.link.lanes } = s.link ∧ changesOnly [.link] s t) ∧
  ∀ (l : ReportLane) (cp : Int) (r : Record),
    let isHit := ∃ x, r = .hit x
    let fits := (isHit → 4 * l.fill < 3 * (l.pages * 512)) ∧ (¬ isHit → l.fill + r.size ≤ l.pages * 512 - 16)
    1 ≤ l.pages →
    (fits → l.shed = 0 → l.lost = 0 → l.accept cp r = { l with records := l.records ++ [r] })
      ∧ (fits → (l.shed ≠ 0 ∨ l.lost ≠ 0) → l.accept cp r = { l with
          records := l.records ++ [.loss l.shed l.lost l.firstLoss l.lastLoss, r], shed := 0, lost := 0 })
      ∧ (¬ fits → isHit → l.accept cp r = { l with
          shed := min (l.shed + 1) 65535, lastLoss := cp
          firstLoss := if l.shed = 0 ∧ l.lost = 0 then cp else l.firstLoss })
      ∧ (¬ fits → ¬ isHit → l.accept cp r = { l with
          lost := min (l.lost + 1) 65535, lastLoss := cp
          firstLoss := if l.shed = 0 ∧ l.lost = 0 then cp else l.firstLoss })

/-- SUBSCRIBE sets the sender's subscription alone, refusing a kind outside the five (R172); FLUSH_LANE empties
the sender's lane and zeroes its tallies before its REPLY (R175). That the loss CPs keep their values is the
model's reading (notes/assumptions/28.md). -/
def Obligations.SubscribeAndFlush : Prop :=
  (∀ (h : Sender) (a : SubscribeArgs) (s : State), s.held = false →
    exec (.subscribe h (.fields a)) s =
      if 32 ≤ a.kindMask.toNat then .next ((s.take h 0x38).refuse h 0x38 .range)
      else .next (((s.take h 0x38).setReportLane h.node { s.link.lanes.get h.node with
        kindMask := a.kindMask.truncate 5, classMask := a.classMask }).reply h 0x38 .ok
          ([a.kindMask] ++ u16 a.classMask.toNat))) ∧
  ∀ (h : Sender) (s : State), s.held = false →
    answers (.flushLane h (.fields ())) s fun t =>
      (1 ≤ (s.link.lanes.get h.node).pages →
        t.link.lanes.get h.node = { s.link.lanes.get h.node with
          records := [.reply h.tag 0x39 .ok []], shed := 0, lost := 0 })
        ∧ (∀ m : Node, m ≠ h.node → t.link.lanes.get m = s.link.lanes.get m) ∧ changesOnly [.link] s t

/-- PARTITION: BUSY outside STOPPED, RANGE unless four counts of at least 1 sum to 64, and otherwise the new page counts
with the intake emptied and each lane's records lost and counted (R176). The REPLY is queued on the sender's lane after
that, behind the LOSS record the lane then owes (R174); that the CPs of its losses stay is the model's reading
(notes/assumptions/28.md). -/
def Obligations.PartitionDividesMemory : Prop :=
  ∀ (h : Sender) (a : PartitionArgs) (s : State), s.held = false →
    if s.run.state ≠ .stopped then
      exec (.partition h (.fields a)) s = .next ((s.take h 0x3A).refuse h 0x3A .busy)
    else if a.intake = 0 ∨ a.lane1 = 0 ∨ a.lane2 = 0 ∨ a.lane3 = 0
        ∨ a.intake.toNat + a.lane1.toNat + a.lane2.toNat + a.lane3.toNat ≠ 64 then
      exec (.partition h (.fields a)) s = .next ((s.take h 0x3A).refuse h 0x3A .range)
    else answers (.partition h (.fields a)) s fun t =>
      t.link.intakePages = a.intake.toNat ∧ t.link.intake = [] ∧ t.link.lanes.n1.pages = a.lane1.toNat
        ∧ t.link.lanes.n2.pages = a.lane2.toNat ∧ t.link.lanes.n3.pages = a.lane3.toNat
        ∧ (∀ n : Node,
            let l := s.link.lanes.get n
            let pages := (match n with | .n1 => a.lane1 | .n2 => a.lane2 | .n3 => a.lane3).toNat
            let lost := if l.records = [] then l.lost else min (l.lost + l.records.length) 65535
            let first := if l.records = [] ∨ l.shed ≠ 0 ∨ l.lost ≠ 0 then l.firstLoss else s.odo.cp
            let last := if l.records = [] then l.lastLoss else s.odo.cp
            let emptied : ReportLane :=
              { l with pages := pages, records := [], lost := lost, firstLoss := first, lastLoss := last }
            t.link.lanes.get n =
              if n ≠ h.node then emptied
              else if l.shed = 0 ∧ lost = 0 then { emptied with records := [.reply h.tag 0x3A .ok []] }
              else { emptied with
                records := [.loss l.shed lost first last, .reply h.tag 0x3A .ok []], shed := 0, lost := 0 })
        ∧ { t.link with intakePages := s.link.intakePages, intake := s.link.intake, lanes := s.link.lanes } = s.link
        ∧ changesOnly [.link] s t

/-- A command outside the index is answered UNKNOWN, and a wrong parameter length LENGTH, on every row that carries
parameters; neither does anything but its REPLY (R179). -/
def Obligations.UnknownAndWrongLength : Prop :=
  ∀ (h : Sender) (code : Byte) (n : Nat) (s : State), s.held = false →
    exec (.unknownCommand h code) s = .next ((s.take h code).refuse h code .unknown)
      ∧ exec (.startRun h (.wrongLength n)) s = .next ((s.take h 0x01).refuse h 0x01 .length)
      ∧ exec (.pauseRun h (.wrongLength n)) s = .next ((s.take h 0x02).refuse h 0x02 .length)
      ∧ exec (.resumeRun h (.wrongLength n)) s = .next ((s.take h 0x03).refuse h 0x03 .length)
      ∧ exec (.endRun h (.wrongLength n)) s = .next ((s.take h 0x04).refuse h 0x04 .length)
      ∧ exec (.warmReset h (.wrongLength n)) s = .next ((s.take h 0x05).refuse h 0x05 .length)
      ∧ exec (.setParam h (.wrongLength n)) s = .next ((s.take h 0x10).refuse h 0x10 .length)
      ∧ exec (.getParam h (.wrongLength n)) s = .next ((s.take h 0x11).refuse h 0x11 .length)
      ∧ exec (.writeProbe h (.wrongLength n)) s = .next ((s.take h 0x12).refuse h 0x12 .length)
      ∧ exec (.readProbe h (.wrongLength n)) s = .next ((s.take h 0x13).refuse h 0x13 .length)
      ∧ exec (.writeStep h (.wrongLength n)) s = .next ((s.take h 0x14).refuse h 0x14 .length)
      ∧ exec (.readStep h (.wrongLength n)) s = .next ((s.take h 0x15).refuse h 0x15 .length)
      ∧ exec (.writePattern h (.wrongLength n)) s = .next ((s.take h 0x16).refuse h 0x16 .length)
      ∧ exec (.readPattern h (.wrongLength n)) s = .next ((s.take h 0x17).refuse h 0x17 .length)
      ∧ exec (.writeSpray h (.wrongLength n)) s = .next ((s.take h 0x18).refuse h 0x18 .length)
      ∧ exec (.readSpray h (.wrongLength n)) s = .next ((s.take h 0x19).refuse h 0x19 .length)
      ∧ exec (.addZone h (.wrongLength n)) s = .next ((s.take h 0x20).refuse h 0x20 .length)
      ∧ exec (.cancelZone h (.wrongLength n)) s = .next ((s.take h 0x21).refuse h 0x21 .length)
      ∧ exec (.listZones h (.wrongLength n)) s = .next ((s.take h 0x22).refuse h 0x22 .length)
      ∧ exec (.markerResumeRetry h (.wrongLength n)) s = .next ((s.take h 0x28).refuse h 0x28 .length)
      ∧ exec (.markerResumeSkip h (.wrongLength n)) s = .next ((s.take h 0x28).refuse h 0x28 .length)
      ∧ exec (.markerTest h (.wrongLength n)) s = .next ((s.take h 0x29).refuse h 0x29 .length)
      ∧ exec (.markerCancel h (.wrongLength n)) s = .next ((s.take h 0x2A).refuse h 0x2A .length)
      ∧ exec (.rebase h (.wrongLength n)) s = .next ((s.take h 0x30).refuse h 0x30 .length)
      ∧ exec (.subscribe h (.wrongLength n)) s = .next ((s.take h 0x38).refuse h 0x38 .length)
      ∧ exec (.flushLane h (.wrongLength n)) s = .next ((s.take h 0x39).refuse h 0x39 .length)
      ∧ exec (.partition h (.wrongLength n)) s = .next ((s.take h 0x3A).refuse h 0x3A .length)
      ∧ exec (.readCell h (.wrongLength n)) s = .next ((s.take h 0x40).refuse h 0x40 .length)
      ∧ exec (.readStatus h (.wrongLength n)) s = .next ((s.take h 0x41).refuse h 0x41 .length)

/-! ## Runs -/

/-- A run-control command is judged against the run state; a refusal carries that state, and START_RUN's checks of R23
refuse it with CONFIG and a reason code (R22, R23). -/
def Obligations.RunControlIsJudged : Prop :=
  ∀ (h : Sender) (s : State), s.held = false →
    (s.run.state ≠ .stopped →
      exec (.startRun h (.fields ())) s = .next ((s.take h 0x01).reply h 0x01 .busy (u8 s.run.state.code))) ∧
    (s.run.state ≠ .running →
      exec (.pauseRun h (.fields ())) s = .next ((s.take h 0x02).reply h 0x02 .state (u8 s.run.state.code))) ∧
    (s.run.state ≠ .paused →
      exec (.resumeRun h (.fields ())) s = .next ((s.take h 0x03).reply h 0x03 .state (u8 s.run.state.code))) ∧
    (s.run.state ≠ .running → s.run.state ≠ .paused →
      exec (.endRun h (.fields ())) s = .next ((s.take h 0x04).reply h 0x04 .state (u8 s.run.state.code))) ∧
    (s.run.state = .stopped →
      let none' := ∀ (p : Fin 32) (k : Fin 16), k.val < s.params.stepCount →
        (s.probes[p]).enabled = true → (s.seq.steps[k]).probeSet.getLsbD p.val = false
      let ascend := ∀ i j : Fin 7, i.val + 1 = j.val → s.params.bands[i] ≤ s.params.bands[j]
      (s.params.stepCount = 0 →
        exec (.startRun h (.fields ())) s = .next ((s.take h 0x01).reply h 0x01 .config (u8 1))) ∧
      (s.params.stepCount ≠ 0 → none' →
        exec (.startRun h (.fields ())) s = .next ((s.take h 0x01).reply h 0x01 .config (u8 2))) ∧
      (s.params.stepCount ≠ 0 → ¬ none' → ¬ ascend →
        exec (.startRun h (.fields ())) s = .next ((s.take h 0x01).reply h 0x01 .config (u8 3))))

/-- A START_RUN whose checks pass: the run number rises by one, the run is RUNNING, HW is CP, the source PRIMARY, SLIP
and the streaks clear, last trigger CP is CP, the reach values are the least and the greatest sum O + Q of the enabled
probes in an active step, each window starts at the K of its reach, the zones behind the close lines and any SUSPEND
zone are removed, a suspension begins if LIFTED is set, the tallies, the runs and the alert are cleared, and each lane is
in SETUP with its SETUP messages queued and none sent, or OK without an enabled probe, its timer and incomplete orders 0 and
every probe's coupling UNKNOWN (R18, R24, R25, R57, R60, R100, R104, R118, R121). The EVENTs come
in the order of R24, that of RETRACE, SOURCE and SLIP being the model's reading (notes/assumptions/7.md). That the
SUSPEND zone's start is held at the upper end of the range too is the model's reading (notes/assumptions/20.md). -/
def Obligations.StartRunStartsARun : Prop :=
  ∀ (h : Sender) (s : State), s.held = false → s.run.state = .stopped → s.run.suspension = false →
    s.configFault = none → answers (.startRun h (.fields ())) s fun t =>
      t.run.state = .running ∧ t.run.runNumber = s.run.runNumber + 1 ∧ t.run.generation = s.run.generation
        ∧ t.run.suspension = s.odo.lifted
        ∧ (∀ r : Rail, t.run.reach.get r = s.railReach r) ∧ t.run.reachAll = s.bothReach
        ∧ t.run.endK = { a := 0, b := 0 }
        ∧ (let counted := fun p : Fin 32 => (s.probes[p]).enabled = true
              ∧ ∃ k : Fin 16, k.val < s.params.stepCount ∧ (s.seq.steps[k]).probeSet.getLsbD p.val = true
           let sum := fun p : Fin 32 => (s.probes[p]).offset + (s.probes[p]).shift
           let isReach := fun (x : Reach) (here : Fin 32 → Prop) =>
             (∀ p, here p → counted p → x.least ≤ sum p ∧ sum p ≤ x.greatest)
               ∧ ((∃ p, here p ∧ counted p) → (∃ p, here p ∧ counted p ∧ sum p = x.least)
                   ∧ ∃ p, here p ∧ counted p ∧ sum p = x.greatest)
               ∧ ((∀ p, here p → ¬ counted p) → x.least = 0 ∧ x.greatest = 0)
           isReach s.bothReach (fun _ => True)
             ∧ ∀ r : Rail, isReach (s.railReach r) fun p => ∃ q : Fin 16, p = probeNo r q)
        ∧ (let kept := s.zones.zones.filter fun z =>
              z.isMute && match z.stop with
                | none => true
                | some e => [Rail.a, .b].any fun r => holdsRail z.rails r
                    && decide ((t.windows.get r).k * (s.params.cellTicks : Int) ≤ e)
           if s.odo.lifted = true then
             ∃ z, t.zones.zones = insertZone z kept ∧ t.zones.idCounter = z.id + 1 ∧ z.kind = .suspend
               ∧ z.rails = 3 ∧ z.groups = 0xFF ∧ z.stop = none ∧ z.node = none
               ∧ (∀ y ∈ kept, kept.length ≤ 17 → y.id ≠ z.id)
               ∧ z.start = max tickMin (min (s.odo.cp + s.bothReach.least - s.params.closeMargin) tickMax)
           else t.zones = { s.zones with zones := kept })
        ∧ (let lane := fun r : Rail =>
             Event.laneState r .setup (s.lanes.get r).state ((s.lanes.get r).setupNumber + 1) .runStart
               :: if ∀ p : Fin 16, (s.probes[probeNo r p]).enabled = false
                 then [Event.laneState r .ok .setup ((s.lanes.get r).setupNumber + 1) .noProbes] else []
           let told := (s.take h 0x01).link.told s.odo.cp
             ((if s.odo.retrace = true then [.retrace false s.odo.cp] else [])
               ++ (if s.odo.source = .secondary then [.source .primary .startRun] else [])
               ++ (if s.odo.slip = true then [.slip false s.odo.judgedP s.odo.judgedS] else [])
               ++ [.runState .running .stopped (s.run.runNumber + 1) (.command h)])
           let begun := if s.odo.lifted = true
             then told.told s.odo.cp ((t.zones.zones.filter fun z => !z.isMute).map fun z =>
               .suspendBegin z.id z.start .runStart false)
             else told
           t.link = (((s.take h 0x01).setLink (begun.told s.odo.cp (lane .a ++ lane .b))).reply h 0x01 .ok
             (u16 (s.run.runNumber + 1).toNat)).link)
        ∧ t.odo.cp = s.odo.cp ∧ t.odo.hw = s.odo.cp ∧ t.odo.retrace = false ∧ t.odo.source = .primary
        ∧ t.odo.slip = false ∧ t.odo.mismatch = 0 ∧ t.odo.agreement = 0 ∧ t.odo.errorTally = 0
        ∧ t.odo.speed = s.odo.speed ∧ t.odo.standstill = s.odo.standstill ∧ t.odo.lifted = s.odo.lifted
        ∧ t.seq.lastTrigger = s.odo.cp ∧ t.seq.cycle = s.seq.cycle ∧ t.seq.ring = s.seq.ring
        ∧ t.seq.tagCounter = s.seq.tagCounter
        ∧ (∀ r : Rail,
            (t.windows.get r).k =
                (s.odo.cp + (t.run.reach.get r).least - s.params.closeMargin) / (s.params.cellTicks : Int)
              ∧ (t.windows.get r).opening = (t.windows.get r).k ∧ (t.windows.get r).cells = []
              ∧ (t.windows.get r).tail = [] ∧ (t.windows.get r).late = 0 ∧ (t.windows.get r).early = 0
              ∧ (t.windows.get r).misplaced = 0
              ∧ (∀ p : Fin 16, (t.lanes.get r).coupling[p] = { state := .unknown, absent := 0, present := 0 })
              ∧ (t.lanes.get r).setupSent = 0 ∧ (t.lanes.get r).setupFinal = false
              ∧ (t.lanes.get r).timer = 0 ∧ (t.lanes.get r).incomplete = 0
              ∧ (t.lanes.get r).setupNumber = (s.lanes.get r).setupNumber + 1
              ∧ (t.lanes.get r).state =
                  (if ∀ p : Fin 16, (s.probes[probeNo r p]).enabled = false then .ok else .setup)
              ∧ (t.lanes.get r).txQueue = (s.lanes.get r).txQueue
                  ++ setupTransfer ((s.lanes.get r).setupNumber + 1) s.probes r
              ∧ (t.lanes.get r).corrupt = 0 ∧ (t.lanes.get r).stale = 0 ∧ (t.lanes.get r).unexpected = 0
              ∧ (t.lanes.get r).duplicate = 0 ∧ (t.eval.gaps.get r).length = 0
              ∧ ∀ p : Fin 32, ((t.eval.runs.get r)[p]).length = 0)
        ∧ t.eval.alert.count = 0 ∧ t.zones.muteCount ≤ s.zones.muteCount
        ∧ changesOnly [.odo, .run, .seq, .lanes, .windows, .zones, .eval, .link] s t

/-- PAUSE_RUN, RESUME_RUN and END_RUN where they are taken: the run state, the suspension of R26, the stopping mark of
R46 and END_RUN's close indices (R26–R29), with the SUSPEND zone opened or finished (R118, R119), and the RUN_STATE
EVENT and the SUSPEND EVENT, in an order that is the model's reading (notes/assumptions/7.md), and the REPLY. Without a
DISTANCE record outstanding END_RUN starts the drain before the next command (R30); that it does so through the queue
is the model's choice (32.md), and the upper clamp of the zone's start its reading (20.md). -/
def Obligations.PauseResumeEnd : Prop :=
  ∀ (h : Sender) (s : State), s.held = false →
    let changed := fun (code : Byte) (new : RunState) => ({ s.take h code with
      run := { s.run with state := new }
      link := (s.take h code).link.told s.odo.cp [.runState new s.run.state s.run.runNumber (.command h)] } : State)
    (s.run.state = .running → answers (.pauseRun h (.fields ())) s fun t =>
      t.run.state = .paused ∧ t.run.suspension = true ∧ t.run.runNumber = s.run.runNumber
        ∧ (s.seq.cycle ≠ .idle → t.seq.stopping = true) ∧ t.seq.cycle = s.seq.cycle
        ∧ t.seq.pendingTrigger = s.seq.pendingTrigger ∧ t.zones = s.zonesWhen true
        ∧ t.link = ((((changed 0x02 .paused).suspendedTo true .pause .endRun)).reply h 0x02 .ok (u8 2)).link
        ∧ changesOnly [.run, .seq, .zones, .link] s t) ∧
    (s.run.state = .paused → answers (.resumeRun h (.fields ())) s fun t =>
      t.run.state = .running ∧ t.run.suspension = s.odo.lifted ∧ t.run.runNumber = s.run.runNumber
        ∧ t.seq.lastTrigger = s.seq.lastTrigger ∧ t.seq.stopping = s.seq.stopping
        ∧ t.zones = s.zonesWhen s.odo.lifted
        ∧ t.link = ((((changed 0x03 .running).suspendedTo s.odo.lifted .lift .resume)).reply h 0x03 .ok (u8 1)).link
        ∧ changesOnly [.run, .seq, .zones, .link] s t) ∧
    (s.run.state = .running ∨ s.run.state = .paused → answers (.endRun h (.fields ())) s fun t =>
      t.run.state = .draining ∧ t.run.suspension = false
        ∧ (∀ r : Rail, t.run.endK.get r = (s.windows.get r).k) ∧ t.seq.keepAliveTimer = 0
        ∧ (s.seq.cycle ≠ .idle → t.seq.stopping = true) ∧ t.seq.ring = s.seq.ring
        ∧ t.zones = s.zonesWhen false
        ∧ t.link = ((((changed 0x04 .draining).suspendedTo false .lift .endRun)).reply h 0x04 .ok (u8 3)).link
        ∧ t.pending = (if ∀ i : Fin 64, (s.seq.ring[i]).outstanding = true → (s.seq.ring[i]).kind ≠ .distance
            then .drain :: s.pending else s.pending)
        ∧ changesOnly [.run, .seq, .zones, .link, .pending] s t)

/-- WARM_RESET in every run state takes a warm reset, without a REPLY (R33). A warm reset, by command or by link break:
the kept and cleared state of R32 block by block, and on each report lane the WARM_RESET EVENT alone (R32, R54, R72,
R110, R124, R144, R164, R177). That the cycle kind keeps its value is the model's choice (notes/assumptions/33.md), and
that a WARM_RESET by command leaves break recovery off its reading (25.md). -/
def Obligations.WarmResetClears : Prop :=
  (∀ (h : Sender) (s : State), s.held = false →
    exec (.warmReset h (.fields ())) s = .next ((s.take h 0x05).warmReset (.command h))) ∧
  ∀ (cause : ResetCause) (s : State),
    let t := s.warmReset cause
    let idle : Engine := { queue := [], state := .idle, valves := .off }
    t.run = { s.run with state := .stopped, suspension := false, endK := { a := 0, b := 0 } }
      ∧ t.odo = s.odo ∧ t.probes = s.probes ∧ t.params = s.params
      ∧ t.seq = { s.seq with
          keepAliveTimer := 0, cycle := .idle, overrun := false, stopping := false, stepTimer := 0
          pendingTrigger := false, overspeed := false, ring := t.seq.ring }
      ∧ (∀ i : Fin 64, (t.seq.ring[i]).outstanding = false)
      ∧ (∀ r : Rail, t.lanes.get r = { s.lanes.get r with
            state := .down, setupSent := 0, setupFinal := false, timer := 0, incomplete := 0
            corrupt := 0, stale := 0, unexpected := 0, duplicate := 0, txQueue := []
            coupling := (t.lanes.get r).coupling }
          ∧ (∀ p : Fin 16, (t.lanes.get r).coupling[p] = { state := .unknown, absent := 0, present := 0 })
          ∧ t.windows.get r =
            { k := 0, opening := 0, cells := [], tail := [], late := 0, early := 0, misplaced := 0 }
          ∧ (t.eval.gaps.get r).length = 0 ∧ (∀ p : Fin 32, ((t.eval.runs.get r)[p]).length = 0)
          ∧ t.marker.engines.get r = idle)
      ∧ t.zones = { s.zones with zones := [] } ∧ t.eval.patterns = s.eval.patterns
      ∧ t.eval.alert = { start := 0, rail := .a, cls := 0, count := 0 }
      ∧ t.marker.sprays = s.marker.sprays ∧ t.marker.lead = s.marker.lead
      ∧ t.link = { s.link with
          intake := [], dominantCount := 0, recovery := decide (cause = .linkBreak)
          receiver := if cause = .linkBreak then .hunting else s.link.receiver, lanes := t.link.lanes }
      ∧ (∀ n : Node, 1 ≤ (s.link.lanes.get n).pages →
          t.link.lanes.get n = { s.link.lanes.get n with
            records := [.event s.odo.cp (.warmReset s.run.state s.run.runNumber cause)]
            shed := 0, lost := 0, firstLoss := 0, lastLoss := 0 })
      ∧ t.held = s.held ∧ t.pins = s.pins ∧ t.samples = s.samples ∧ t.pending = s.pending
      ∧ t.freeCtr = s.freeCtr

/-- REBASE: BUSY outside STOPPED; RANGE if any moved coordinate would leave the 32-bit range; otherwise CP, HW,
every zone and every marker target move by delta together, RETRACE is kept, LIMIT follows the new CP with a LIMIT EVENT
if it changes, and the REPLY OK carries the new CP (R6, R15, R122). That nothing else moves is the model's reading
(notes/assumptions/22.md). -/
def Obligations.RebaseMovesCoordinates : Prop :=
  ∀ (h : Sender) (delta : Word32) (s : State), s.held = false →
    let fits := fun x : Int => tickMin ≤ x - delta.toInt ∧ x - delta.toInt ≤ tickMax
    if s.run.state ≠ .stopped then
      exec (.rebase h (.fields delta)) s = .next ((s.take h 0x30).refuse h 0x30 .busy)
    else
      let all := fits s.odo.cp ∧ fits s.odo.hw
        ∧ (∀ z ∈ s.zones.zones, fits z.start ∧ ∀ e, z.stop = some e → fits e)
        ∧ (∀ r : Rail, ∀ e ∈ (s.marker.engines.get r).queue, fits e.target)
      (¬ all → exec (.rebase h (.fields delta)) s = .next ((s.take h 0x30).refuse h 0x30 .range)) ∧
      (all → answers (.rebase h (.fields delta)) s fun t =>
        t.odo = { s.odo with
            cp := s.odo.cp - delta.toInt, hw := s.odo.hw - delta.toInt, limit := limitOf (s.odo.cp - delta.toInt) }
          ∧ t.zones = { s.zones with zones := s.zones.zones.map fun z =>
              { z with start := z.start - delta.toInt, stop := z.stop.map (· - delta.toInt) } }
          ∧ (∀ r : Rail, t.marker.engines.get r = { s.marker.engines.get r with
              queue := (s.marker.engines.get r).queue.map fun e => { e with target := e.target - delta.toInt } })
          ∧ t.marker.sprays = s.marker.sprays ∧ t.marker.lead = s.marker.lead
          ∧ (let cp := s.odo.cp - delta.toInt
             let told := if limitOf cp = s.odo.limit then []
               else match limitOf cp, s.odo.limit with
                 | some e, _ => [Event.limit true e]
                 | none, some e => [.limit false e]
                 | none, none => []
             t.link = ((((s.take h 0x30).setOdo { s.odo with cp := cp }).setLink
               ((s.take h 0x30).link.told cp told)).reply h 0x30 .ok (i32 cp)).link)
          ∧ changesOnly [.odo, .zones, .marker, .link] s t)

/-! ## Configuration -/

/-- SET_PARAM and GET_PARAM (R180, R181): an id outside the table is RANGE; a stopped parameter outside STOPPED is
BUSY; a value is stored, clamped or refused by its range; a taken write holds its value, leaves every other parameter
as it was, adds 1 to the generation counter and answers OK or CLAMPED with the id, the value taken and the counter;
GET_PARAM returns the value held and changes nothing. A SECONDARY_MODE write zeroes the streaks, clears SLIP with a SLIP
EVENT of the last window judged since they were last zeroed, and OFF returns the source to PRIMARY with a SOURCE EVENT of cause MODE_WRITE (R13), in
an order that is the model's reading (notes/assumptions/7.md). A write of a gun offset moves G and makes the due test of
its rail (R148, R149); a write of VALVE_LATENCY_US leaves the lead, and every other part of the marker, as it was until the
next speed update (R148). -/
def Obligations.ParametersAreWrittenAndRead : Prop :=
  (∀ (h : Sender) (a : SetParamArgs) (s : State), s.held = false →
    let x := a.value.toInt
    let u := s.take h 0x10
    let tested := fun (v : Int) => if a.id = 25
      then (u.setParams { s.params with gunOffset := { s.params.gunOffset with a := v } }).dueTest .a
      else (u.setParams { s.params with gunOffset := { s.params.gunOffset with b := v } }).dueTest .b
    let told := fun (v : Int) => if a.id = 25 ∨ a.id = 26 then (tested v).link
      else if a.id = 7 then u.link.told s.odo.cp
        ((if s.odo.slip = true then [.slip false s.odo.judgedP s.odo.judgedS] else [])
          ++ (if v = 0 ∧ s.odo.source = .secondary then [.source .primary .modeWrite] else []))
      else u.link
    let taken := fun (result : Result) (v : Int) => answers (.setParam h (.fields a)) s fun t =>
      t.params.read a.id.toNat = v
        ∧ (∀ n : Nat, n ≠ a.id.toNat → t.params.read n = s.params.read n)
        ∧ t.run = { s.run with generation := s.run.generation + 1 }
        ∧ (a.id ≠ 7 → t.odo = s.odo) ∧ (a.id ≠ 25 → a.id ≠ 26 → t.marker = s.marker)
        ∧ (a.id = 25 ∨ a.id = 26 → t.marker = (tested v).marker)
        ∧ t.link = ((u.setLink (told v)).reply h 0x10 result
            ([a.id] ++ i32 v ++ u16 (s.run.generation + 1).toNat)).link
        ∧ changesOnly [.params, .run, .odo, .marker, .link] s t
    match paramSpec a.id.toNat with
    | none => exec (.setParam h (.fields a)) s = .next ((s.take h 0x10).refuse h 0x10 .range)
    | some spec =>
      if spec.stopped = true ∧ s.run.state ≠ .stopped then
        exec (.setParam h (.fields a)) s = .next ((s.take h 0x10).refuse h 0x10 .busy)
      else if spec.range.holds x = true then taken .ok x
      else if spec.clamped = true then taken .clamped (spec.range.nearest x)
      else exec (.setParam h (.fields a)) s = .next ((s.take h 0x10).refuse h 0x10 .range)) ∧
  (∀ (h : Sender) (id : Byte) (s : State), s.held = false →
    exec (.getParam h (.fields id)) s =
      if 1 ≤ id.toNat ∧ id.toNat ≤ 37 then
        .next ((s.take h 0x11).reply h 0x11 .ok ([id] ++ i32 (s.params.read id.toNat)))
      else .next ((s.take h 0x11).refuse h 0x11 .range)) ∧
  ∀ (h : Sender) (v : Word32) (s : State), s.held = false → s.run.state = .stopped →
    0 ≤ v.toInt → v.toInt ≤ 2 → answers (.setParam h (.fields { id := 7, value := v })) s fun t =>
      t.odo.mismatch = 0 ∧ t.odo.agreement = 0 ∧ t.odo.slip = false
        ∧ t.odo.source = (if v = 0 then .primary else s.odo.source)
        ∧ t.odo.deltaP = s.odo.deltaP ∧ t.odo.deltaS = s.odo.deltaS ∧ t.odo.cp = s.odo.cp
        ∧ t.odo.judgedP = 0 ∧ t.odo.judgedS = 0
        ∧ t.params.secondaryMode = (if v = 0 then .off else if v = 1 then .monitor else .failover)

/-- WRITE_PROBE and READ_PROBE (R73–R75): the number, then outside STOPPED the stopped fields (enabled, group, O, Q, and
role, window start and window width of each gate) against those held, then the ranges; a taken write stores each field as
carried with D at most 4095, leaves every other entry, adds 1 to the generation counter and answers OK with the counter,
or CLAMPED for a D above 4095; a read answers the 40 bytes of the entry. What the CLAMPED REPLY carries beside the counter
is the model's reading (notes/assumptions/19.md), as is a flag byte judged by bit 0 alone outside STOPPED too (18.md). -/
def Obligations.ProbesAreWrittenAndRead : Prop :=
  let roleNo : GateRole → Nat := fun x => match x with
    | .off => 0
    | .flaw => 1
    | .drop => 2
    | .coupling => 3
  (∀ (h : Sender) (a : WriteProbeArgs) (s : State), s.held = false →
    let same := fun held : Probe =>
      a.enabled.getLsbD 0 = held.enabled ∧ a.group.toNat = held.group.val ∧ a.offset.toInt = held.offset
        ∧ a.shift.toInt = held.shift
        ∧ ∀ i : Fin 4, (a.gates[i]).role.toNat = roleNo (held.gates[i]).role
          ∧ (a.gates[i]).windowStart.toNat = (held.gates[i]).windowStart
          ∧ (a.gates[i]).windowWidth.toNat = (held.gates[i]).windowWidth
    let good := a.group.toNat ≤ 7 ∧ -4096 ≤ a.offset.toInt ∧ a.offset.toInt ≤ 4095
      ∧ -1024 ≤ a.shift.toInt ∧ a.shift.toInt ≤ 1023
      ∧ ∀ i : Fin 4, (a.gates[i]).role.toNat ≤ 3 ∧ 1 ≤ (a.gates[i]).windowWidth.toNat
        ∧ (a.gates[i]).windowStart.toNat + (a.gates[i]).windowWidth.toNat - 1 ≤ 65535
        ∧ (a.gates[i]).dropBand.toNat ≤ 7
    if hn : a.probe.toNat < 32 then
      let n : Fin 32 := ⟨a.probe.toNat, hn⟩
      (s.run.state ≠ .stopped → ¬ same s.probes[n] →
        exec (.writeProbe h (.fields a)) s = .next ((s.take h 0x12).refuse h 0x12 .busy)) ∧
      ((s.run.state ≠ .stopped → same s.probes[n]) → ¬ good →
        exec (.writeProbe h (.fields a)) s = .next ((s.take h 0x12).refuse h 0x12 .range)) ∧
      ((s.run.state ≠ .stopped → same s.probes[n]) → good →
        answers (.writeProbe h (.fields a)) s fun t =>
          let p := t.probes[n]
          p.enabled = a.enabled.getLsbD 0 ∧ p.group.val = a.group.toNat ∧ p.offset = a.offset.toInt
            ∧ p.shift = a.shift.toInt ∧ p.delay = min a.delay.toNat 4095 ∧ p.lead = a.lead.toInt
            ∧ p.depthFactor = a.depthFactor.toNat
            ∧ (∀ i : Fin 4, roleNo (p.gates[i]).role = (a.gates[i]).role.toNat
                ∧ (p.gates[i]).windowStart = (a.gates[i]).windowStart.toNat
                ∧ (p.gates[i]).windowWidth = (a.gates[i]).windowWidth.toNat
                ∧ (p.gates[i]).threshold = (a.gates[i]).threshold.toNat
                ∧ (p.gates[i]).dropBand.val = (a.gates[i]).dropBand.toNat)
            ∧ (∀ j : Fin 32, j ≠ n → t.probes[j] = s.probes[j])
            ∧ t.run = { s.run with generation := s.run.generation + 1 }
            ∧ t.link = ((s.take h 0x12).reply h 0x12 (if 4095 < a.delay.toNat then .clamped else .ok)
                ((if 4095 < a.delay.toNat then u16 4095 else []) ++ u16 (s.run.generation + 1).toNat)).link
            ∧ changesOnly [.probes, .run, .link] s t)
    else exec (.writeProbe h (.fields a)) s = .next ((s.take h 0x12).refuse h 0x12 .range)) ∧
  ∀ (h : Sender) (b : Byte) (s : State), s.held = false →
    if hn : b.toNat < 32 then
      let p := s.probes[(⟨b.toNat, hn⟩ : Fin 32)]
      let bytes := u8 p.enabled.toNat ++ u8 p.group.val ++ i16 p.offset ++ i16 p.shift ++ u16 p.delay ++ i16 p.lead
        ++ u16 p.depthFactor ++ ([0, 1, 2, 3] : List (Fin 4)).flatMap fun i =>
          u8 (roleNo (p.gates[i]).role) ++ u16 (p.gates[i]).windowStart ++ u16 (p.gates[i]).windowWidth
            ++ u8 (p.gates[i]).threshold ++ u8 (p.gates[i]).dropBand.val
      bytes.length = 40 ∧ exec (.readProbe h (.fields b)) s = .next ((s.take h 0x13).reply h 0x13 .ok bytes)
    else exec (.readProbe h (.fields b)) s = .next ((s.take h 0x13).refuse h 0x13 .range)

/-- WRITE_PATTERN and READ_PATTERN (R125–R127, R135): a number above 31 or a field or term outside its range is RANGE; a
taken write stores each field and term as carried, abandons the pattern's runs on both rails, leaves every other pattern
and run, adds 1 to the generation counter and answers OK with the counter; READ_PATTERN answers entry and runs and changes
nothing. That bits of the flags and the rail mask that no layout assigns are ignored is the model's reading
(notes/assumptions/18.md), as is a closed run sent without a start cell (14.md). -/
def Obligations.PatternsAreWrittenAndRead : Prop :=
  let kindNo : HitKind → Nat := fun x => match x with
    | .flaw => 0
    | .drop => 1
  (∀ (h : Sender) (a : WritePatternArgs) (s : State), s.held = false →
    let good := 1 ≤ a.terms.length ∧ a.terms.length ≤ 4 ∧ a.spread.toNat ≤ 3 ∧ 1 ≤ a.minRun.toNat
      ∧ a.minRun.toNat ≤ 64 ∧ a.cls.toNat ≤ 15 ∧ a.spray.toNat ≤ 7
      ∧ ∀ x : TermArgs, x ∈ a.terms → x.group.toNat ≤ 7 ∧ x.kind.toNat ≤ 1 ∧ 1 ≤ x.minCount.toNat ∧ x.minCount.toNat ≤ 15
        ∧ (x.kind = 0 → x.bandMask ≠ 0)
    if hn : a.pattern.toNat < 32 then
      let n : Fin 32 := ⟨a.pattern.toNat, hn⟩
      (¬ good → exec (.writePattern h (.fields a)) s = .next ((s.take h 0x16).refuse h 0x16 .range)) ∧
      (good → answers (.writePattern h (.fields a)) s fun t =>
        let p := t.eval.patterns[n]
        p.enabled = a.flags.getLsbD 0 ∧ p.urgent = a.flags.getLsbD 1 ∧ p.rails = a.railMask.truncate 2
          ∧ p.spread = a.spread.toNat ∧ p.minRun = a.minRun.toNat ∧ p.cls.val = a.cls.toNat
          ∧ (a.spray = 0 → p.spray = none)
          ∧ (∀ k : Fin 7, a.spray.toNat = k.val + 1 → p.spray = some k)
          ∧ p.terms.length = a.terms.length
          ∧ (∀ (i : Nat) (x : TermArgs) (y : Machine.Term), a.terms[i]? = some x → p.terms[i]? = some y →
              y.group.val = x.group.toNat ∧ kindNo y.kind = x.kind.toNat ∧ y.bands = x.bandMask
                ∧ y.minCount = x.minCount.toNat ∧ y.minAmplitude = x.minAmplitude.toNat)
          ∧ (∀ j : Fin 32, j ≠ n → t.eval.patterns[j] = s.eval.patterns[j])
          ∧ (∀ r : Rail, ((t.eval.runs.get r)[n]).length = 0
              ∧ ∀ j : Fin 32, j ≠ n → (t.eval.runs.get r)[j] = (s.eval.runs.get r)[j])
          ∧ t.eval.gaps = s.eval.gaps ∧ t.eval.alert = s.eval.alert
          ∧ t.run = { s.run with generation := s.run.generation + 1 }
          ∧ t.link = ((s.take h 0x16).reply h 0x16 .ok (u16 (s.run.generation + 1).toNat)).link
          ∧ changesOnly [.eval, .run, .link] s t)
    else exec (.writePattern h (.fields a)) s = .next ((s.take h 0x16).refuse h 0x16 .range)) ∧
  ∀ (h : Sender) (b : Byte) (s : State), s.held = false →
    if hn : b.toNat < 32 then
      let n : Fin 32 := ⟨b.toNat, hn⟩
      let p := s.eval.patterns[n]
      let entry := u8 (p.enabled.toNat + 2 * p.urgent.toNat) ++ u8 p.rails.toNat ++ u8 p.spread ++ u8 p.minRun
        ++ u8 p.cls.val ++ u8 (match p.spray with | none => 0 | some k => k.val + 1) ++ u8 p.terms.length
        ++ p.terms.flatMap fun (x : Machine.Term) =>
          u8 x.group.val ++ u8 (kindNo x.kind) ++ [x.bands] ++ u8 x.minCount ++ u8 x.minAmplitude
      let runs := [Rail.a, .b].flatMap fun r =>
        let x := (s.eval.runs.get r)[n]
        u8 x.length ++ if x.length = 0 then [] else i32 x.start
      exec (.readPattern h (.fields b)) s = .next ((s.take h 0x17).reply h 0x17 .ok (entry ++ runs))
    else exec (.readPattern h (.fields b)) s = .next ((s.take h 0x17).refuse h 0x17 .range)

/-- WRITE_STEP and READ_STEP (R37): a number above 15 is RANGE; outside STOPPED a different probe set is BUSY;
else the step holds the probe set and the listen time taken, every other step is unchanged, and the REPLY is OK, or CLAMPED
for a listen time outside 10–1000, with the listen time taken and the generation counter. WRITE_SPRAY and READ_SPRAY
(R145): a number outside 1–7 or a field outside its range is RANGE; a taken write stores the five fields, leaves every
other spray pattern and the engines, and answers OK with the counter. Each taken write adds 1 to the generation counter.
That a colour or purge byte above 1 is RANGE is the model's reading (notes/assumptions/12.md). -/
def Obligations.StepsAndSpraysAreWrittenAndRead : Prop :=
  (∀ (h : Sender) (a : WriteStepArgs) (s : State), s.held = false →
    if hk : a.step.toNat < 16 then
      let k : Fin 16 := ⟨a.step.toNat, hk⟩
      if s.run.state ≠ .stopped ∧ a.probeSet ≠ (s.seq.steps[k]).probeSet then
        exec (.writeStep h (.fields a)) s = .next ((s.take h 0x14).refuse h 0x14 .busy)
      else answers (.writeStep h (.fields a)) s fun t =>
        t.seq.steps[k] = { probeSet := a.probeSet, listen := max 10 (min a.listen.toNat 1000) }
          ∧ (∀ j : Fin 16, j ≠ k → t.seq.steps[j] = s.seq.steps[j])
          ∧ { t.seq with steps := s.seq.steps } = s.seq
          ∧ t.run = { s.run with generation := s.run.generation + 1 }
          ∧ t.link = ((s.take h 0x14).reply h 0x14
              (if 10 ≤ a.listen.toNat ∧ a.listen.toNat ≤ 1000 then .ok else .clamped)
              (u16 (max 10 (min a.listen.toNat 1000)) ++ u16 (s.run.generation + 1).toNat)).link
          ∧ changesOnly [.seq, .run, .link] s t
    else exec (.writeStep h (.fields a)) s = .next ((s.take h 0x14).refuse h 0x14 .range)) ∧
  (∀ (h : Sender) (b : Byte) (s : State), s.held = false →
    exec (.readStep h (.fields b)) s =
      if hk : b.toNat < 16 then
        .next ((s.take h 0x15).reply h 0x15 .ok
          (u32 (s.seq.steps[(⟨b.toNat, hk⟩ : Fin 16)]).probeSet.toNat
            ++ u16 (s.seq.steps[(⟨b.toNat, hk⟩ : Fin 16)]).listen ++ u8 s.params.stepCount))
      else .next ((s.take h 0x15).refuse h 0x15 .range)) ∧
  (∀ (h : Sender) (a : WriteSprayArgs) (s : State), s.held = false →
    let good := 1 ≤ a.dashCount.toNat ∧ a.dashCount.toNat ≤ 4 ∧ 1 ≤ a.dashLength.toNat ∧ a.dashLength.toNat ≤ 1023
      ∧ 1 ≤ a.gapLength.toNat ∧ a.gapLength.toNat ≤ 1023 ∧ a.colour.toNat ≤ 1 ∧ a.purge.toNat ≤ 1
    match sprayOf a.number with
    | none => exec (.writeSpray h (.fields a)) s = .next ((s.take h 0x18).refuse h 0x18 .range)
    | some n =>
      (¬ good → exec (.writeSpray h (.fields a)) s = .next ((s.take h 0x18).refuse h 0x18 .range)) ∧
      (good → answers (.writeSpray h (.fields a)) s fun t =>
        t.marker.sprays[n] = Spray.mk a.dashCount.toNat a.dashLength.toNat a.gapLength.toNat
            (decide (a.colour = 1)) (decide (a.purge = 1))
          ∧ (∀ j : Fin 7, j ≠ n → t.marker.sprays[j] = s.marker.sprays[j])
          ∧ t.marker.engines = s.marker.engines ∧ t.marker.lead = s.marker.lead
          ∧ t.run = { s.run with generation := s.run.generation + 1 }
          ∧ t.link = ((s.take h 0x18).reply h 0x18 .ok (u16 (s.run.generation + 1).toNat)).link
          ∧ changesOnly [.marker, .run, .link] s t)) ∧
  ∀ (h : Sender) (b : Byte) (s : State), s.held = false →
    match sprayOf b with
    | none => exec (.readSpray h (.fields b)) s = .next ((s.take h 0x19).refuse h 0x19 .range)
    | some n => exec (.readSpray h (.fields b)) s = .next ((s.take h 0x19).reply h 0x19 .ok
        (u8 (s.marker.sprays[n]).dashCount ++ u16 (s.marker.sprays[n]).dashLength
          ++ u16 (s.marker.sprays[n]).gapLength ++ u8 (s.marker.sprays[n]).colour.toNat
          ++ u8 (s.marker.sprays[n]).purge.toNat))

/-! ## Zones -/

/-- ADD_ZONE: the four tests of R114 in order, a MUTE zone of the sender inserted under the id of R113, and the REPLY OK
with that id. That
bits of the rail mask beyond the two rails are ignored is the model's reading (notes/assumptions/18.md). -/
def Obligations.ZoneIsAdded : Prop :=
  ∀ (h : Sender) (a : AddZoneArgs) (s : State), s.held = false →
    let rails : BitVec 2 := a.railMask.truncate 2
    let ahead := fun r : Rail => holdsRail rails r = true
      ∧ (s.windows.get r).k * (s.params.cellTicks : Int) ≤ a.stop.toInt
    if rails = 0 ∨ a.groupMask = 0 ∨ a.stop.toInt < a.start.toInt then
      exec (.addZone h (.fields a)) s = .next ((s.take h 0x20).refuse h 0x20 .range)
    else if s.run.state ≠ .stopped ∧ ¬ ahead .a ∧ ¬ ahead .b then
      exec (.addZone h (.fields a)) s = .next ((s.take h 0x20).refuse h 0x20 .past)
    else if 16 ≤ (s.zones.zones.filter fun z => decide (z.kind = .mute)).length then
      exec (.addZone h (.fields a)) s = .next ((s.take h 0x20).refuse h 0x20 .full)
    else answers (.addZone h (.fields a)) s fun t =>
      ∃ u v z, s.zones.zones = u ++ v ∧ t.zones.zones = u ++ z :: v
        ∧ z = { id := s.zones.nextId, kind := .mute, rails := rails, groups := a.groupMask,
                start := a.start.toInt, stop := some a.stop.toInt, node := some h.node }
        ∧ (s.zones.zones.length ≤ 17 → ∀ y ∈ s.zones.zones, y.id ≠ z.id) ∧ t.zones.idCounter = z.id + 1
        ∧ t.link = ((s.take h 0x20).reply h 0x20 .ok [z.id]).link
        ∧ changesOnly [.zones, .link] s t

/-- CANCEL_ZONE answers NOT_FOUND, STATE for the SUSPEND zone, or removes the MUTE zone and keeps the others (R115);
LIST_ZONES answers the counter, the number and every zone in order, and changes no zone (R117). An expiry test removes
each zone with its end below the close tick of every rail it covers (R116). At an onset the SUSPEND zone is opened, or
the finished one opened again with the lesser start, and at the end of a suspension it is finished, each with its EVENT
(R118, R119, R123). That a start above the range is held at its upper end is the model's reading
(notes/assumptions/20.md), and the end field listed for an open zone is free (notes/assumptions/5.md). -/
def Obligations.ZonesAreCancelledAndListed : Prop :=
  (∀ (h : Sender) (id : Byte) (s : State), s.held = false →
    ((∀ z ∈ s.zones.zones, z.id ≠ id) →
      exec (.cancelZone h (.fields id)) s = .next ((s.take h 0x21).refuse h 0x21 .notFound)) ∧
    (∀ z ∈ s.zones.zones, z.id = id → (∀ y ∈ s.zones.zones, y.id = id → y = z) →
      exec (.cancelZone h (.fields id)) s =
        if z.kind = .suspend then .next ((s.take h 0x21).refuse h 0x21 .state)
        else .next (((s.take h 0x21).setZones { s.zones with
          zones := s.zones.zones.filter fun y => y.id != id }).reply h 0x21 .ok []))) ∧
  (∀ (h : Sender) (s : State), s.held = false →
    answers (.listZones h (.fields ())) s fun t =>
      changesOnly [.link, .freeCtr] s t
        ∧ ∃ absent : Int, t.link = ((s.take h 0x22).reply h 0x22 .ok
            ([s.zones.idCounter, BitVec.ofNat 8 s.zones.zones.length] ++ s.zones.zones.flatMap fun z =>
              [z.id] ++ u8 (match z.kind with | .mute => 0 | .suspend => 1) ++ u8 z.rails.toNat ++ [z.groups]
                ++ i32 z.start ++ (match z.stop with | some e => i32 e ++ u8 1 | none => i32 absent ++ u8 0)
                ++ u8 (match z.node with | none => 0 | some .n1 => 1 | some .n2 => 2 | some .n3 => 3))).link) ∧
  (∀ s : State, changesOnly [.zones] s s.expireZones ∧ s.expireZones.zones.idCounter = s.zones.idCounter
    ∧ ∃ keep : Zone → Bool, s.expireZones.zones.zones = s.zones.zones.filter keep
      ∧ ∀ z, keep z = false ↔ ∃ e, z.stop = some e ∧ ∀ r : Rail, holdsRail z.rails r = true →
          e < (s.windows.get r).k * (s.params.cellTicks : Int)) ∧
  ∀ s : State,
    let start := max tickMin (min (s.odo.cp + s.run.reachAll.least - s.params.closeMargin) tickMax)
    let others := s.zones.zones.filter fun z => decide (z.kind = .mute)
    ((∀ z ∈ s.zones.zones, z.kind = .mute) →
      (∀ c, ∃ z : Zone, z = { id := s.zones.nextId, kind := .suspend, rails := 3, groups := 0xFF, start := start,
                              stop := none, node := none }
        ∧ (s.beginSuspension c).zones = { zones := insertZone z s.zones.zones, idCounter := z.id + 1 }
        ∧ (s.beginSuspension c).link = (s.event (.suspendBegin z.id z.start c false)).link)
      ∧ ∀ c, (s.endSuspension c).zones = s.zones) ∧
    (∀ z ∈ s.zones.zones, z.kind = .suspend → (∀ y ∈ s.zones.zones, y.kind = .suspend → y = z) →
      (∀ c, (s.beginSuspension c).zones =
            { s.zones with zones := insertZone { z with start := min z.start start, stop := none } others }
          ∧ (s.beginSuspension c).link = (s.event (.suspendBegin z.id (min z.start start) c true)).link)
      ∧ ∀ c, let stop := max z.start (min tickMax (s.odo.cp + s.run.reachAll.greatest))
          (s.endSuspension c).zones = { s.zones with zones := s.zones.zones.map fun y =>
              if y.kind = .suspend then { y with stop := some stop } else y }
            ∧ (s.endSuspension c).link = (s.event (.suspendEnd z.id z.start stop c)).link)

/-! ## Reading -/

/-- READ_CELL answers an open cell, a cell of the tail, or NOT_FOUND (R108); READ_STATUS answers a section 0–8 with
its number and its fields as they stand, and refuses any other with RANGE (R182). Neither changes anything but the
link and the model's counter of free values. The widths and the order of some fields are the model's reading, the
floor of the elapsed ms its choice (notes/assumptions/15.md, 35.md); the cycle kind in IDLE and the distance in PURGE
and RECOVER show what the model keeps there (33.md, 34.md), as do the overrun and stopping marks in IDLE (13.md), the setup
progress in FAULT and DOWN (40.md), the dash in progress in GAP, PURGE and RECOVER (41.md) and the close tick in STOPPED
after a CELL_TICKS write, formed with the value held (42.md); the
LIMIT end while LIMIT is clear, the ends of an empty tail, the fire point of an empty queue and the side of an entry
without one are free (notes/assumptions/5.md). -/
def Obligations.CellsAndStatusAreRead : Prop :=
  (∀ (h : Sender) (a : ReadCellArgs) (s : State), s.held = false →
    match railOf a.rail with
    | none => exec (.readCell h (.fields a)) s = .next ((s.take h 0x40).refuse h 0x40 .range)
    | some r =>
      let w := s.windows.get r
      let c := a.cell.toInt
      ((w.k ≤ c ∧ c ≤ w.k + 1023) →
        exec (.readCell h (.fields a)) s = .next ((s.take h 0x40).reply h 0x40 .ok
          (i32 c ++ u8 0 ++ groupsBytes (w.groups c)))) ∧
      (¬ (w.k ≤ c ∧ c ≤ w.k + 1023) → (∀ x ∈ w.tail, x.index ≠ c) →
        exec (.readCell h (.fields a)) s = .next ((s.take h 0x40).refuse h 0x40 .notFound)) ∧
      (¬ (w.k ≤ c ∧ c ≤ w.k + 1023) → ∀ x ∈ w.tail, x.index = c → (∀ y ∈ w.tail, y.index = c → y = x) →
        exec (.readCell h (.fields a)) s = .next ((s.take h 0x40).reply h 0x40 .ok
          (i32 c ++ u8 1 ++ groupsBytes x.groups ++ [x.muted] ++ u8 x.drain.toNat)))) ∧
  ∀ (h : Sender) (b : Byte) (s : State), s.held = false →
    if b.toNat ≤ 8 then
      answers (.readStatus h (.fields b)) s fun t =>
        changesOnly [.link, .freeCtr] s t
          ∧ ∃ bs, (s.take h 0x41).sectionBytes b.toNat = some bs
              ∧ t.link = ((s.take h 0x41).reply h 0x41 .ok (b :: bs)).link
              ∧ match b.toNat with
                | 0 => ∃ limitEnd : Nat,
                  bs = u8 s.run.state.code ++ u16 s.run.runNumber.toNat ++ flag s.run.suspension
                      ++ u16 s.run.generation.toNat ++ i16 s.run.reach.a.least ++ i16 s.run.reach.a.greatest
                      ++ i16 s.run.reach.b.least ++ i16 s.run.reach.b.greatest ++ i16 s.run.reachAll.least
                      ++ i16 s.run.reachAll.greatest ++ i32 s.odo.cp ++ i32 s.odo.hw
                      ++ u8 (Direction.code s.odo.direction) ++ u8 (Encoder.code s.odo.source) ++ u16 s.odo.speed
                      ++ flag s.odo.standstill ++ flag s.odo.slip ++ flag s.odo.retrace ++ flag s.odo.limit.isSome
                      ++ u8 limitEnd ++ flag s.odo.lifted ++ u8 s.odo.mismatch ++ u8 s.odo.agreement
                      ++ u16 s.odo.errorTally
                    ∧ (s.odo.limit = some .upper → limitEnd = 0) ∧ (s.odo.limit = some .lower → limitEnd = 1)
                | 1 => ∃ oldest : List Byte,
                  bs = (match s.seq.cycle with | .idle => [0, 0] | .stepping k => [1, BitVec.ofNat 8 k])
                      ++ u8 (CycleKind.code s.seq.kind) ++ flag s.seq.overrun ++ flag s.seq.stopping
                      ++ flag s.seq.pendingTrigger ++ flag s.seq.overspeed ++ i32 s.seq.lastTrigger
                      ++ [s.seq.tagCounter] ++ u8 (s.seq.outstanding .a) ++ u8 (s.seq.outstanding .b) ++ oldest
                    ∧ (if ∀ i : Fin 64, (s.seq.ring[i]).outstanding = false then oldest = [0]
                      else ∃ i : Fin 64, (s.seq.ring[i]).outstanding = true
                        ∧ (∀ j : Fin 64, (s.seq.ring[j]).outstanding = true →
                            (s.seq.ring[i]).issued ≤ (s.seq.ring[j]).issued)
                        ∧ oldest = [1, (s.seq.ring[i]).tag] ++ u8 (Rail.num (s.seq.ring[i]).lane)
                            ++ u8 (s.seq.ring[i]).step ++ u8 (CycleKind.code (s.seq.ring[i]).kind)
                            ++ u16 (min (10 * (s.samples / 80 - (s.seq.ring[i]).issued)) 65535))
                | 4 => ∃ edges : PerRail (List Byte),
                  (∀ r : Rail, (edges.get r).length = 8
                    ∧ ∀ x y, (s.windows.get r).tail.head? = some x → (s.windows.get r).tail.getLast? = some y →
                        edges.get r = i32 x.index ++ i32 y.index)
                    ∧ bs = ([Rail.a, .b].flatMap fun r =>
                        i32 (s.windows.get r).k ++ i32 (s.windows.get r).opening
                          ++ i32 ((s.windows.get r).k * (s.params.cellTicks : Int))
                          ++ u8 (s.windows.get r).tail.length ++ edges.get r ++ u16 (s.windows.get r).late
                          ++ u16 (s.windows.get r).early ++ u16 (s.windows.get r).misplaced
                          ++ u16 (s.eval.gaps.get r).length ++ i32 (s.eval.gaps.get r).start
                          ++ [(s.eval.gaps.get r).missing]
                          ++ u8 ((s.eval.runs.get r).toList.filter fun x => x.length != 0).length)
                      ++ u8 s.params.cellTicks ++ u16 s.params.closeMargin ++ [s.params.required.a]
                      ++ [s.params.required.b] ++ u8 s.params.gapMin ++ i32 s.eval.alert.start
                      ++ u8 (Rail.num s.eval.alert.rail) ++ u8 s.eval.alert.cls.val ++ [s.eval.alert.count]
                | 5 => bs = [BitVec.ofNat 8 s.zones.muteCount, BitVec.ofNat 8 s.zones.suspendSlot,
                    s.zones.idCounter]
                | 8 =>
                  let l := (s.take h 0x41).link
                  bs = u8 l.intakePages ++ u8 l.lanes.n1.pages ++ u8 l.lanes.n2.pages ++ u8 l.lanes.n3.pages
                      ++ u16 l.intakeFill ++ u16 l.lanes.n1.fill ++ u16 l.lanes.n2.fill ++ u16 l.lanes.n3.fill
                      ++ ([Node.n1, .n2, .n3].flatMap fun n =>
                        u8 (l.lanes.get n).kindMask.toNat ++ u16 (l.lanes.get n).classMask.toNat
                          ++ u16 (l.lanes.get n).shed ++ u16 (l.lanes.get n).lost
                          ++ i32 (l.lanes.get n).firstLoss ++ i32 (l.lanes.get n).lastLoss)
                      ++ u16 l.oversize ++ u16 l.badNode ++ u16 l.badCheck ++ u16 l.badLength ++ u16 l.noRoom
                      ++ u16 l.aborts ++ u8 l.dominantCount ++ flag l.recovery
                | n => if n ≤ 3 then
                    let l := s.lanes.get (if n = 2 then .a else .b)
                    bs = u8 l.state.code ++ [l.setupNumber] ++ u8 l.setupSent ++ flag l.setupFinal ++ u16 l.timer
                      ++ u8 l.incomplete ++ u16 l.corrupt ++ u16 l.stale ++ u16 l.unexpected ++ u16 l.duplicate
                      ++ (List.finRange 16).flatMap fun p => u8 (l.coupling[p]).state.code
                          ++ u8 (l.coupling[p]).absent ++ u8 (l.coupling[p]).present
                  else
                    let r : Rail := if n = 6 then .a else .b
                    let e := s.marker.engines.get r
                    ∃ (point : Int) (mark sides : List Byte), sides.length = e.queue.length
                      ∧ bs = u8 e.state.code ++ u16 s.marker.lead ++ i32 (s.gun r) ++ i32 point ++ mark
                          ++ u8 e.queue.length ++ ((e.queue.zip sides).flatMap fun x =>
                            i32 x.1.target ++ u8 (x.1.spray.val + 1) ++ u8 x.1.cls.val
                              ++ u8 (Origin.code x.1.origin) ++ u8 (Arming.code x.1.arming) ++ [x.2])
                      ∧ (∀ x rest, e.queue = x :: rest → point = s.firePoint x.target)
                      ∧ (∀ x ∈ e.queue.zip sides, ∀ d, x.1.side = some d → x.2 = BitVec.ofNat 8 d.code)
                      ∧ (match e.state with
                        | .painting _ m => mark = [1] ++ u8 (Origin.code m.origin) ++ i32 m.target
                            ++ u8 (m.spray.val + 1) ++ u8 m.cls.val ++ u8 (Arming.code m.arming) ++ u8 m.dash
                            ++ u16 (min m.distance 65535) ++ u16 (min (m.elapsed / 100) 65535)
                        | _ => mark = List.replicate 14 0)
    else exec (.readStatus h (.fields b)) s = .next ((s.take h 0x41).refuse h 0x41 .range)

/-! ## What every step keeps -/

/-- CP and HW stay in range with CP at or below HW, LIMIT shows CP at an end and RETRACE shows CP below HW (R6, R7). -/
def Obligations.CoordinatesStayInRange : Prop := keptByEveryStep coordinatesAgree

/-- No valve is on in IDLE or HALTED, at most one colour valve is on, the purge valve only in PURGE, and a colour
valve only in PULLIN and HOLD of a mark of its colour (R157). -/
def Obligations.ValvesStayWithPhase : Prop := keptByEveryStep valvesAgree

/-- The open records of a window stay in canonical form between K and K + 1023, with their counts at most 15 and no
band or peak without a hit; the tail holds at most seven consecutive cells ending at K − 1 (R89, R90, R93). -/
def Obligations.WindowsStaySound : Prop := keptByEveryStep fun s => windowsSound s ∧ tailsAligned s

/-- The Zone List keeps at most 16 MUTE zones and one SUSPEND zone, in order, with start ≤ end and none open but the
SUSPEND zone (R112); each marker queue keeps at most 16 entries in order of target (R146). -/
def Obligations.ZonesAndQueuesStayOrdered : Prop := keptByEveryStep fun s => zonesSound s ∧ queuesSound s

/-- Every outstanding firing record stays in the slot of its tag, so no two carry the same tag (R48). -/
def Obligations.RecordsStayInTheirSlots : Prop := keptByEveryStep recordsInSlots

/-- The page counts stay at least 1 with the sum 64, and no queue holds more bytes than its pages (R176). -/
def Obligations.QueueMemoryStaysDivided : Prop := keptByEveryStep queueMemorySound

/-- The machine right after reset has everything the statements above keep. -/
def Obligations.ResetIsSound : Prop :=
  coordinatesAgree State.reset ∧ valvesAgree State.reset ∧ windowsSound State.reset
    ∧ tailsAligned State.reset ∧ zonesSound State.reset ∧ queuesSound State.reset
    ∧ recordsInSlots State.reset ∧ queueMemorySound State.reset

/-- No command but SET_PARAM, WRITE_PROBE, WRITE_STEP, WRITE_PATTERN, WRITE_SPRAY and the release of cold reset
changes a parameter, a configuration table or the generation counter (R34, R35). -/
def Obligations.OnlyWritesChangeConfiguration : Prop :=
  ∀ (i : Instr) (s t : State), exec i s = .next t →
    (∀ h p, i ≠ .setParam h p) → (∀ h p, i ≠ .writeProbe h p) → (∀ h p, i ≠ .writeStep h p) →
    (∀ h p, i ≠ .writePattern h p) → (∀ h p, i ≠ .writeSpray h p) → (∀ l, i ≠ .resetRelease l) →
      t.params = s.params ∧ t.probes = s.probes ∧ t.seq.steps = s.seq.steps
        ∧ t.eval.patterns = s.eval.patterns ∧ t.marker.sprays = s.marker.sprays
        ∧ t.run.generation = s.run.generation

/-- The run state changes only along the table of R21, by the command or event named there; the run number changes
only at START_RUN and cold reset. -/
def Obligations.RunStateFollowsItsTable : Prop :=
  ∀ (i : Instr) (s t : State), exec i s = .next t →
    (t.run.state = s.run.state
      ∨ (s.run.state = .stopped ∧ t.run.state = .running ∧ ∃ h, i = .startRun h (.fields ()))
      ∨ (s.run.state = .running ∧ t.run.state = .paused ∧ ∃ h, i = .pauseRun h (.fields ()))
      ∨ (s.run.state = .paused ∧ t.run.state = .running ∧ ∃ h, i = .resumeRun h (.fields ()))
      ∨ ((s.run.state = .running ∨ s.run.state = .paused) ∧ t.run.state = .draining
          ∧ ∃ h, i = .endRun h (.fields ()))
      ∨ (s.run.state = .draining ∧ t.run.state = .stopped ∧ i = .drain)
      ∨ (t.run.state = .stopped ∧ ((∃ h, i = .warmReset h (.fields ())) ∨ i = .linkBreak
          ∨ ∃ l, i = .resetRelease l)))
    ∧ (t.run.runNumber = s.run.runNumber ∨ (∃ h, i = .startRun h (.fields ())) ∨ ∃ l, i = .resetRelease l)
end

