-- ==== Sys2Proof/Laws/State.lean ====
section
/-! SUPPORT. One lemma for each field under each update of the state, true by `rfl` (the updates of Ops.lean,
and the queue and engine updates of Marking.lean), and what `PerRail` and `PerNode` give after a set. -/
namespace Sys2Proof.Machine

@[simp] theorem PerRail.get_set_same {α : Type} (p : PerRail α) (r : Rail) (x : α) :
    (p.set r x).get r = x := by cases r <;> rfl

theorem PerRail.get_set_ne {α : Type} (p : PerRail α) {r q : Rail} (h : q ≠ r) (x : α) :
    (p.set r x).get q = p.get q := by cases r <;> cases q <;> simp_all [PerRail.set, PerRail.get]

@[simp] theorem PerRail.set_get {α : Type} (p : PerRail α) (r : Rail) : p.set r (p.get r) = p := by
  cases r <;> rfl

@[simp] theorem PerNode.get_set_same {α : Type} (p : PerNode α) (n : Node) (x : α) :
    (p.set n x).get n = x := by cases n <;> rfl

theorem PerNode.get_set_ne {α : Type} (p : PerNode α) {n m : Node} (h : m ≠ n) (x : α) :
    (p.set n x).get m = p.get m := by cases n <;> cases m <;> simp_all [PerNode.set, PerNode.get]

/-! ### setOdo -/

@[simp] theorem State.setOdo_held (s : State) (x : Odometry) : (s.setOdo x).held = s.held := rfl
@[simp] theorem State.setOdo_odo (s : State) (x : Odometry) : (s.setOdo x).odo = x := rfl
@[simp] theorem State.setOdo_run (s : State) (x : Odometry) : (s.setOdo x).run = s.run := rfl
@[simp] theorem State.setOdo_seq (s : State) (x : Odometry) : (s.setOdo x).seq = s.seq := rfl
@[simp] theorem State.setOdo_lanes (s : State) (x : Odometry) : (s.setOdo x).lanes = s.lanes := rfl
@[simp] theorem State.setOdo_probes (s : State) (x : Odometry) : (s.setOdo x).probes = s.probes := rfl
@[simp] theorem State.setOdo_windows (s : State) (x : Odometry) : (s.setOdo x).windows = s.windows := rfl
@[simp] theorem State.setOdo_zones (s : State) (x : Odometry) : (s.setOdo x).zones = s.zones := rfl
@[simp] theorem State.setOdo_eval (s : State) (x : Odometry) : (s.setOdo x).eval = s.eval := rfl
@[simp] theorem State.setOdo_marker (s : State) (x : Odometry) : (s.setOdo x).marker = s.marker := rfl
@[simp] theorem State.setOdo_link (s : State) (x : Odometry) : (s.setOdo x).link = s.link := rfl
@[simp] theorem State.setOdo_params (s : State) (x : Odometry) : (s.setOdo x).params = s.params := rfl
@[simp] theorem State.setOdo_pins (s : State) (x : Odometry) : (s.setOdo x).pins = s.pins := rfl
@[simp] theorem State.setOdo_samples (s : State) (x : Odometry) : (s.setOdo x).samples = s.samples := rfl
@[simp] theorem State.setOdo_freeCtr (s : State) (x : Odometry) : (s.setOdo x).freeCtr = s.freeCtr := rfl
@[simp] theorem State.setOdo_pending (s : State) (x : Odometry) : (s.setOdo x).pending = s.pending := rfl

/-! ### setRun -/

@[simp] theorem State.setRun_held (s : State) (x : RunControl) : (s.setRun x).held = s.held := rfl
@[simp] theorem State.setRun_odo (s : State) (x : RunControl) : (s.setRun x).odo = s.odo := rfl
@[simp] theorem State.setRun_run (s : State) (x : RunControl) : (s.setRun x).run = x := rfl
@[simp] theorem State.setRun_seq (s : State) (x : RunControl) : (s.setRun x).seq = s.seq := rfl
@[simp] theorem State.setRun_lanes (s : State) (x : RunControl) : (s.setRun x).lanes = s.lanes := rfl
@[simp] theorem State.setRun_probes (s : State) (x : RunControl) : (s.setRun x).probes = s.probes := rfl
@[simp] theorem State.setRun_windows (s : State) (x : RunControl) : (s.setRun x).windows = s.windows := rfl
@[simp] theorem State.setRun_zones (s : State) (x : RunControl) : (s.setRun x).zones = s.zones := rfl
@[simp] theorem State.setRun_eval (s : State) (x : RunControl) : (s.setRun x).eval = s.eval := rfl
@[simp] theorem State.setRun_marker (s : State) (x : RunControl) : (s.setRun x).marker = s.marker := rfl
@[simp] theorem State.setRun_link (s : State) (x : RunControl) : (s.setRun x).link = s.link := rfl
@[simp] theorem State.setRun_params (s : State) (x : RunControl) : (s.setRun x).params = s.params := rfl
@[simp] theorem State.setRun_pins (s : State) (x : RunControl) : (s.setRun x).pins = s.pins := rfl
@[simp] theorem State.setRun_samples (s : State) (x : RunControl) : (s.setRun x).samples = s.samples := rfl
@[simp] theorem State.setRun_freeCtr (s : State) (x : RunControl) : (s.setRun x).freeCtr = s.freeCtr := rfl
@[simp] theorem State.setRun_pending (s : State) (x : RunControl) : (s.setRun x).pending = s.pending := rfl

/-! ### setSeq -/

@[simp] theorem State.setSeq_held (s : State) (x : Sequencer) : (s.setSeq x).held = s.held := rfl
@[simp] theorem State.setSeq_odo (s : State) (x : Sequencer) : (s.setSeq x).odo = s.odo := rfl
@[simp] theorem State.setSeq_run (s : State) (x : Sequencer) : (s.setSeq x).run = s.run := rfl
@[simp] theorem State.setSeq_seq (s : State) (x : Sequencer) : (s.setSeq x).seq = x := rfl
@[simp] theorem State.setSeq_lanes (s : State) (x : Sequencer) : (s.setSeq x).lanes = s.lanes := rfl
@[simp] theorem State.setSeq_probes (s : State) (x : Sequencer) : (s.setSeq x).probes = s.probes := rfl
@[simp] theorem State.setSeq_windows (s : State) (x : Sequencer) : (s.setSeq x).windows = s.windows := rfl
@[simp] theorem State.setSeq_zones (s : State) (x : Sequencer) : (s.setSeq x).zones = s.zones := rfl
@[simp] theorem State.setSeq_eval (s : State) (x : Sequencer) : (s.setSeq x).eval = s.eval := rfl
@[simp] theorem State.setSeq_marker (s : State) (x : Sequencer) : (s.setSeq x).marker = s.marker := rfl
@[simp] theorem State.setSeq_link (s : State) (x : Sequencer) : (s.setSeq x).link = s.link := rfl
@[simp] theorem State.setSeq_params (s : State) (x : Sequencer) : (s.setSeq x).params = s.params := rfl
@[simp] theorem State.setSeq_pins (s : State) (x : Sequencer) : (s.setSeq x).pins = s.pins := rfl
@[simp] theorem State.setSeq_samples (s : State) (x : Sequencer) : (s.setSeq x).samples = s.samples := rfl
@[simp] theorem State.setSeq_freeCtr (s : State) (x : Sequencer) : (s.setSeq x).freeCtr = s.freeCtr := rfl
@[simp] theorem State.setSeq_pending (s : State) (x : Sequencer) : (s.setSeq x).pending = s.pending := rfl

/-! ### setLanes -/

@[simp] theorem State.setLanes_held (s : State) (x : PerRail Lane) : (s.setLanes x).held = s.held := rfl
@[simp] theorem State.setLanes_odo (s : State) (x : PerRail Lane) : (s.setLanes x).odo = s.odo := rfl
@[simp] theorem State.setLanes_run (s : State) (x : PerRail Lane) : (s.setLanes x).run = s.run := rfl
@[simp] theorem State.setLanes_seq (s : State) (x : PerRail Lane) : (s.setLanes x).seq = s.seq := rfl
@[simp] theorem State.setLanes_lanes (s : State) (x : PerRail Lane) : (s.setLanes x).lanes = x := rfl
@[simp] theorem State.setLanes_probes (s : State) (x : PerRail Lane) : (s.setLanes x).probes = s.probes := rfl
@[simp] theorem State.setLanes_windows (s : State) (x : PerRail Lane) : (s.setLanes x).windows = s.windows := rfl
@[simp] theorem State.setLanes_zones (s : State) (x : PerRail Lane) : (s.setLanes x).zones = s.zones := rfl
@[simp] theorem State.setLanes_eval (s : State) (x : PerRail Lane) : (s.setLanes x).eval = s.eval := rfl
@[simp] theorem State.setLanes_marker (s : State) (x : PerRail Lane) : (s.setLanes x).marker = s.marker := rfl
@[simp] theorem State.setLanes_link (s : State) (x : PerRail Lane) : (s.setLanes x).link = s.link := rfl
@[simp] theorem State.setLanes_params (s : State) (x : PerRail Lane) : (s.setLanes x).params = s.params := rfl
@[simp] theorem State.setLanes_pins (s : State) (x : PerRail Lane) : (s.setLanes x).pins = s.pins := rfl
@[simp] theorem State.setLanes_samples (s : State) (x : PerRail Lane) : (s.setLanes x).samples = s.samples := rfl
@[simp] theorem State.setLanes_freeCtr (s : State) (x : PerRail Lane) : (s.setLanes x).freeCtr = s.freeCtr := rfl
@[simp] theorem State.setLanes_pending (s : State) (x : PerRail Lane) : (s.setLanes x).pending = s.pending := rfl

/-! ### setProbes -/

@[simp] theorem State.setProbes_held (s : State) (x : Vector Probe 32) : (s.setProbes x).held = s.held := rfl
@[simp] theorem State.setProbes_odo (s : State) (x : Vector Probe 32) : (s.setProbes x).odo = s.odo := rfl
@[simp] theorem State.setProbes_run (s : State) (x : Vector Probe 32) : (s.setProbes x).run = s.run := rfl
@[simp] theorem State.setProbes_seq (s : State) (x : Vector Probe 32) : (s.setProbes x).seq = s.seq := rfl
@[simp] theorem State.setProbes_lanes (s : State) (x : Vector Probe 32) : (s.setProbes x).lanes = s.lanes := rfl
@[simp] theorem State.setProbes_probes (s : State) (x : Vector Probe 32) : (s.setProbes x).probes = x := rfl
@[simp] theorem State.setProbes_windows (s : State) (x : Vector Probe 32) : (s.setProbes x).windows = s.windows := rfl
@[simp] theorem State.setProbes_zones (s : State) (x : Vector Probe 32) : (s.setProbes x).zones = s.zones := rfl
@[simp] theorem State.setProbes_eval (s : State) (x : Vector Probe 32) : (s.setProbes x).eval = s.eval := rfl
@[simp] theorem State.setProbes_marker (s : State) (x : Vector Probe 32) : (s.setProbes x).marker = s.marker := rfl
@[simp] theorem State.setProbes_link (s : State) (x : Vector Probe 32) : (s.setProbes x).link = s.link := rfl
@[simp] theorem State.setProbes_params (s : State) (x : Vector Probe 32) : (s.setProbes x).params = s.params := rfl
@[simp] theorem State.setProbes_pins (s : State) (x : Vector Probe 32) : (s.setProbes x).pins = s.pins := rfl
@[simp] theorem State.setProbes_samples (s : State) (x : Vector Probe 32) : (s.setProbes x).samples = s.samples := rfl
@[simp] theorem State.setProbes_freeCtr (s : State) (x : Vector Probe 32) : (s.setProbes x).freeCtr = s.freeCtr := rfl
@[simp] theorem State.setProbes_pending (s : State) (x : Vector Probe 32) : (s.setProbes x).pending = s.pending := rfl

/-! ### setWindows -/

@[simp] theorem State.setWindows_held (s : State) (x : PerRail Window) : (s.setWindows x).held = s.held := rfl
@[simp] theorem State.setWindows_odo (s : State) (x : PerRail Window) : (s.setWindows x).odo = s.odo := rfl
@[simp] theorem State.setWindows_run (s : State) (x : PerRail Window) : (s.setWindows x).run = s.run := rfl
@[simp] theorem State.setWindows_seq (s : State) (x : PerRail Window) : (s.setWindows x).seq = s.seq := rfl
@[simp] theorem State.setWindows_lanes (s : State) (x : PerRail Window) : (s.setWindows x).lanes = s.lanes := rfl
@[simp] theorem State.setWindows_probes (s : State) (x : PerRail Window) : (s.setWindows x).probes = s.probes := rfl
@[simp] theorem State.setWindows_windows (s : State) (x : PerRail Window) : (s.setWindows x).windows = x := rfl
@[simp] theorem State.setWindows_zones (s : State) (x : PerRail Window) : (s.setWindows x).zones = s.zones := rfl
@[simp] theorem State.setWindows_eval (s : State) (x : PerRail Window) : (s.setWindows x).eval = s.eval := rfl
@[simp] theorem State.setWindows_marker (s : State) (x : PerRail Window) : (s.setWindows x).marker = s.marker := rfl
@[simp] theorem State.setWindows_link (s : State) (x : PerRail Window) : (s.setWindows x).link = s.link := rfl
@[simp] theorem State.setWindows_params (s : State) (x : PerRail Window) : (s.setWindows x).params = s.params := rfl
@[simp] theorem State.setWindows_pins (s : State) (x : PerRail Window) : (s.setWindows x).pins = s.pins := rfl
@[simp] theorem State.setWindows_samples (s : State) (x : PerRail Window) : (s.setWindows x).samples = s.samples := rfl
@[simp] theorem State.setWindows_freeCtr (s : State) (x : PerRail Window) : (s.setWindows x).freeCtr = s.freeCtr := rfl
@[simp] theorem State.setWindows_pending (s : State) (x : PerRail Window) : (s.setWindows x).pending = s.pending := rfl

/-! ### setZones -/

@[simp] theorem State.setZones_held (s : State) (x : ZoneList) : (s.setZones x).held = s.held := rfl
@[simp] theorem State.setZones_odo (s : State) (x : ZoneList) : (s.setZones x).odo = s.odo := rfl
@[simp] theorem State.setZones_run (s : State) (x : ZoneList) : (s.setZones x).run = s.run := rfl
@[simp] theorem State.setZones_seq (s : State) (x : ZoneList) : (s.setZones x).seq = s.seq := rfl
@[simp] theorem State.setZones_lanes (s : State) (x : ZoneList) : (s.setZones x).lanes = s.lanes := rfl
@[simp] theorem State.setZones_probes (s : State) (x : ZoneList) : (s.setZones x).probes = s.probes := rfl
@[simp] theorem State.setZones_windows (s : State) (x : ZoneList) : (s.setZones x).windows = s.windows := rfl
@[simp] theorem State.setZones_zones (s : State) (x : ZoneList) : (s.setZones x).zones = x := rfl
@[simp] theorem State.setZones_eval (s : State) (x : ZoneList) : (s.setZones x).eval = s.eval := rfl
@[simp] theorem State.setZones_marker (s : State) (x : ZoneList) : (s.setZones x).marker = s.marker := rfl
@[simp] theorem State.setZones_link (s : State) (x : ZoneList) : (s.setZones x).link = s.link := rfl
@[simp] theorem State.setZones_params (s : State) (x : ZoneList) : (s.setZones x).params = s.params := rfl
@[simp] theorem State.setZones_pins (s : State) (x : ZoneList) : (s.setZones x).pins = s.pins := rfl
@[simp] theorem State.setZones_samples (s : State) (x : ZoneList) : (s.setZones x).samples = s.samples := rfl
@[simp] theorem State.setZones_freeCtr (s : State) (x : ZoneList) : (s.setZones x).freeCtr = s.freeCtr := rfl
@[simp] theorem State.setZones_pending (s : State) (x : ZoneList) : (s.setZones x).pending = s.pending := rfl

/-! ### setEval -/

@[simp] theorem State.setEval_held (s : State) (x : Evaluator) : (s.setEval x).held = s.held := rfl
@[simp] theorem State.setEval_odo (s : State) (x : Evaluator) : (s.setEval x).odo = s.odo := rfl
@[simp] theorem State.setEval_run (s : State) (x : Evaluator) : (s.setEval x).run = s.run := rfl
@[simp] theorem State.setEval_seq (s : State) (x : Evaluator) : (s.setEval x).seq = s.seq := rfl
@[simp] theorem State.setEval_lanes (s : State) (x : Evaluator) : (s.setEval x).lanes = s.lanes := rfl
@[simp] theorem State.setEval_probes (s : State) (x : Evaluator) : (s.setEval x).probes = s.probes := rfl
@[simp] theorem State.setEval_windows (s : State) (x : Evaluator) : (s.setEval x).windows = s.windows := rfl
@[simp] theorem State.setEval_zones (s : State) (x : Evaluator) : (s.setEval x).zones = s.zones := rfl
@[simp] theorem State.setEval_eval (s : State) (x : Evaluator) : (s.setEval x).eval = x := rfl
@[simp] theorem State.setEval_marker (s : State) (x : Evaluator) : (s.setEval x).marker = s.marker := rfl
@[simp] theorem State.setEval_link (s : State) (x : Evaluator) : (s.setEval x).link = s.link := rfl
@[simp] theorem State.setEval_params (s : State) (x : Evaluator) : (s.setEval x).params = s.params := rfl
@[simp] theorem State.setEval_pins (s : State) (x : Evaluator) : (s.setEval x).pins = s.pins := rfl
@[simp] theorem State.setEval_samples (s : State) (x : Evaluator) : (s.setEval x).samples = s.samples := rfl
@[simp] theorem State.setEval_freeCtr (s : State) (x : Evaluator) : (s.setEval x).freeCtr = s.freeCtr := rfl
@[simp] theorem State.setEval_pending (s : State) (x : Evaluator) : (s.setEval x).pending = s.pending := rfl

/-! ### setMarker -/

@[simp] theorem State.setMarker_held (s : State) (x : Marker) : (s.setMarker x).held = s.held := rfl
@[simp] theorem State.setMarker_odo (s : State) (x : Marker) : (s.setMarker x).odo = s.odo := rfl
@[simp] theorem State.setMarker_run (s : State) (x : Marker) : (s.setMarker x).run = s.run := rfl
@[simp] theorem State.setMarker_seq (s : State) (x : Marker) : (s.setMarker x).seq = s.seq := rfl
@[simp] theorem State.setMarker_lanes (s : State) (x : Marker) : (s.setMarker x).lanes = s.lanes := rfl
@[simp] theorem State.setMarker_probes (s : State) (x : Marker) : (s.setMarker x).probes = s.probes := rfl
@[simp] theorem State.setMarker_windows (s : State) (x : Marker) : (s.setMarker x).windows = s.windows := rfl
@[simp] theorem State.setMarker_zones (s : State) (x : Marker) : (s.setMarker x).zones = s.zones := rfl
@[simp] theorem State.setMarker_eval (s : State) (x : Marker) : (s.setMarker x).eval = s.eval := rfl
@[simp] theorem State.setMarker_marker (s : State) (x : Marker) : (s.setMarker x).marker = x := rfl
@[simp] theorem State.setMarker_link (s : State) (x : Marker) : (s.setMarker x).link = s.link := rfl
@[simp] theorem State.setMarker_params (s : State) (x : Marker) : (s.setMarker x).params = s.params := rfl
@[simp] theorem State.setMarker_pins (s : State) (x : Marker) : (s.setMarker x).pins = s.pins := rfl
@[simp] theorem State.setMarker_samples (s : State) (x : Marker) : (s.setMarker x).samples = s.samples := rfl
@[simp] theorem State.setMarker_freeCtr (s : State) (x : Marker) : (s.setMarker x).freeCtr = s.freeCtr := rfl
@[simp] theorem State.setMarker_pending (s : State) (x : Marker) : (s.setMarker x).pending = s.pending := rfl

/-! ### setLink -/

@[simp] theorem State.setLink_held (s : State) (x : LinkState) : (s.setLink x).held = s.held := rfl
@[simp] theorem State.setLink_odo (s : State) (x : LinkState) : (s.setLink x).odo = s.odo := rfl
@[simp] theorem State.setLink_run (s : State) (x : LinkState) : (s.setLink x).run = s.run := rfl
@[simp] theorem State.setLink_seq (s : State) (x : LinkState) : (s.setLink x).seq = s.seq := rfl
@[simp] theorem State.setLink_lanes (s : State) (x : LinkState) : (s.setLink x).lanes = s.lanes := rfl
@[simp] theorem State.setLink_probes (s : State) (x : LinkState) : (s.setLink x).probes = s.probes := rfl
@[simp] theorem State.setLink_windows (s : State) (x : LinkState) : (s.setLink x).windows = s.windows := rfl
@[simp] theorem State.setLink_zones (s : State) (x : LinkState) : (s.setLink x).zones = s.zones := rfl
@[simp] theorem State.setLink_eval (s : State) (x : LinkState) : (s.setLink x).eval = s.eval := rfl
@[simp] theorem State.setLink_marker (s : State) (x : LinkState) : (s.setLink x).marker = s.marker := rfl
@[simp] theorem State.setLink_link (s : State) (x : LinkState) : (s.setLink x).link = x := rfl
@[simp] theorem State.setLink_params (s : State) (x : LinkState) : (s.setLink x).params = s.params := rfl
@[simp] theorem State.setLink_pins (s : State) (x : LinkState) : (s.setLink x).pins = s.pins := rfl
@[simp] theorem State.setLink_samples (s : State) (x : LinkState) : (s.setLink x).samples = s.samples := rfl
@[simp] theorem State.setLink_freeCtr (s : State) (x : LinkState) : (s.setLink x).freeCtr = s.freeCtr := rfl
@[simp] theorem State.setLink_pending (s : State) (x : LinkState) : (s.setLink x).pending = s.pending := rfl

/-! ### setParams -/

@[simp] theorem State.setParams_held (s : State) (x : Parameters) : (s.setParams x).held = s.held := rfl
@[simp] theorem State.setParams_odo (s : State) (x : Parameters) : (s.setParams x).odo = s.odo := rfl
@[simp] theorem State.setParams_run (s : State) (x : Parameters) : (s.setParams x).run = s.run := rfl
@[simp] theorem State.setParams_seq (s : State) (x : Parameters) : (s.setParams x).seq = s.seq := rfl
@[simp] theorem State.setParams_lanes (s : State) (x : Parameters) : (s.setParams x).lanes = s.lanes := rfl
@[simp] theorem State.setParams_probes (s : State) (x : Parameters) : (s.setParams x).probes = s.probes := rfl
@[simp] theorem State.setParams_windows (s : State) (x : Parameters) : (s.setParams x).windows = s.windows := rfl
@[simp] theorem State.setParams_zones (s : State) (x : Parameters) : (s.setParams x).zones = s.zones := rfl
@[simp] theorem State.setParams_eval (s : State) (x : Parameters) : (s.setParams x).eval = s.eval := rfl
@[simp] theorem State.setParams_marker (s : State) (x : Parameters) : (s.setParams x).marker = s.marker := rfl
@[simp] theorem State.setParams_link (s : State) (x : Parameters) : (s.setParams x).link = s.link := rfl
@[simp] theorem State.setParams_params (s : State) (x : Parameters) : (s.setParams x).params = x := rfl
@[simp] theorem State.setParams_pins (s : State) (x : Parameters) : (s.setParams x).pins = s.pins := rfl
@[simp] theorem State.setParams_samples (s : State) (x : Parameters) : (s.setParams x).samples = s.samples := rfl
@[simp] theorem State.setParams_freeCtr (s : State) (x : Parameters) : (s.setParams x).freeCtr = s.freeCtr := rfl
@[simp] theorem State.setParams_pending (s : State) (x : Parameters) : (s.setParams x).pending = s.pending := rfl

/-! ### setPins -/

@[simp] theorem State.setPins_held (s : State) (x : Pins) : (s.setPins x).held = s.held := rfl
@[simp] theorem State.setPins_odo (s : State) (x : Pins) : (s.setPins x).odo = s.odo := rfl
@[simp] theorem State.setPins_run (s : State) (x : Pins) : (s.setPins x).run = s.run := rfl
@[simp] theorem State.setPins_seq (s : State) (x : Pins) : (s.setPins x).seq = s.seq := rfl
@[simp] theorem State.setPins_lanes (s : State) (x : Pins) : (s.setPins x).lanes = s.lanes := rfl
@[simp] theorem State.setPins_probes (s : State) (x : Pins) : (s.setPins x).probes = s.probes := rfl
@[simp] theorem State.setPins_windows (s : State) (x : Pins) : (s.setPins x).windows = s.windows := rfl
@[simp] theorem State.setPins_zones (s : State) (x : Pins) : (s.setPins x).zones = s.zones := rfl
@[simp] theorem State.setPins_eval (s : State) (x : Pins) : (s.setPins x).eval = s.eval := rfl
@[simp] theorem State.setPins_marker (s : State) (x : Pins) : (s.setPins x).marker = s.marker := rfl
@[simp] theorem State.setPins_link (s : State) (x : Pins) : (s.setPins x).link = s.link := rfl
@[simp] theorem State.setPins_params (s : State) (x : Pins) : (s.setPins x).params = s.params := rfl
@[simp] theorem State.setPins_pins (s : State) (x : Pins) : (s.setPins x).pins = x := rfl
@[simp] theorem State.setPins_samples (s : State) (x : Pins) : (s.setPins x).samples = s.samples := rfl
@[simp] theorem State.setPins_freeCtr (s : State) (x : Pins) : (s.setPins x).freeCtr = s.freeCtr := rfl
@[simp] theorem State.setPins_pending (s : State) (x : Pins) : (s.setPins x).pending = s.pending := rfl

/-! ### setLane -/

@[simp] theorem State.setLane_held (s : State) (r : Rail) (x : Lane) :
    (s.setLane r x).held = s.held := rfl
@[simp] theorem State.setLane_odo (s : State) (r : Rail) (x : Lane) :
    (s.setLane r x).odo = s.odo := rfl
@[simp] theorem State.setLane_run (s : State) (r : Rail) (x : Lane) :
    (s.setLane r x).run = s.run := rfl
@[simp] theorem State.setLane_seq (s : State) (r : Rail) (x : Lane) :
    (s.setLane r x).seq = s.seq := rfl
@[simp] theorem State.setLane_lanes (s : State) (r : Rail) (x : Lane) :
    (s.setLane r x).lanes = s.lanes.set r x := rfl
@[simp] theorem State.setLane_probes (s : State) (r : Rail) (x : Lane) :
    (s.setLane r x).probes = s.probes := rfl
@[simp] theorem State.setLane_windows (s : State) (r : Rail) (x : Lane) :
    (s.setLane r x).windows = s.windows := rfl
@[simp] theorem State.setLane_zones (s : State) (r : Rail) (x : Lane) :
    (s.setLane r x).zones = s.zones := rfl
@[simp] theorem State.setLane_eval (s : State) (r : Rail) (x : Lane) :
    (s.setLane r x).eval = s.eval := rfl
@[simp] theorem State.setLane_marker (s : State) (r : Rail) (x : Lane) :
    (s.setLane r x).marker = s.marker := rfl
@[simp] theorem State.setLane_link (s : State) (r : Rail) (x : Lane) :
    (s.setLane r x).link = s.link := rfl
@[simp] theorem State.setLane_params (s : State) (r : Rail) (x : Lane) :
    (s.setLane r x).params = s.params := rfl
@[simp] theorem State.setLane_pins (s : State) (r : Rail) (x : Lane) :
    (s.setLane r x).pins = s.pins := rfl
@[simp] theorem State.setLane_samples (s : State) (r : Rail) (x : Lane) :
    (s.setLane r x).samples = s.samples := rfl
@[simp] theorem State.setLane_freeCtr (s : State) (r : Rail) (x : Lane) :
    (s.setLane r x).freeCtr = s.freeCtr := rfl
@[simp] theorem State.setLane_pending (s : State) (r : Rail) (x : Lane) :
    (s.setLane r x).pending = s.pending := rfl

/-! ### setWindow -/

@[simp] theorem State.setWindow_held (s : State) (r : Rail) (x : Window) :
    (s.setWindow r x).held = s.held := rfl
@[simp] theorem State.setWindow_odo (s : State) (r : Rail) (x : Window) :
    (s.setWindow r x).odo = s.odo := rfl
@[simp] theorem State.setWindow_run (s : State) (r : Rail) (x : Window) :
    (s.setWindow r x).run = s.run := rfl
@[simp] theorem State.setWindow_seq (s : State) (r : Rail) (x : Window) :
    (s.setWindow r x).seq = s.seq := rfl
@[simp] theorem State.setWindow_lanes (s : State) (r : Rail) (x : Window) :
    (s.setWindow r x).lanes = s.lanes := rfl
@[simp] theorem State.setWindow_probes (s : State) (r : Rail) (x : Window) :
    (s.setWindow r x).probes = s.probes := rfl
@[simp] theorem State.setWindow_windows (s : State) (r : Rail) (x : Window) :
    (s.setWindow r x).windows = s.windows.set r x := rfl
@[simp] theorem State.setWindow_zones (s : State) (r : Rail) (x : Window) :
    (s.setWindow r x).zones = s.zones := rfl
@[simp] theorem State.setWindow_eval (s : State) (r : Rail) (x : Window) :
    (s.setWindow r x).eval = s.eval := rfl
@[simp] theorem State.setWindow_marker (s : State) (r : Rail) (x : Window) :
    (s.setWindow r x).marker = s.marker := rfl
@[simp] theorem State.setWindow_link (s : State) (r : Rail) (x : Window) :
    (s.setWindow r x).link = s.link := rfl
@[simp] theorem State.setWindow_params (s : State) (r : Rail) (x : Window) :
    (s.setWindow r x).params = s.params := rfl
@[simp] theorem State.setWindow_pins (s : State) (r : Rail) (x : Window) :
    (s.setWindow r x).pins = s.pins := rfl
@[simp] theorem State.setWindow_samples (s : State) (r : Rail) (x : Window) :
    (s.setWindow r x).samples = s.samples := rfl
@[simp] theorem State.setWindow_freeCtr (s : State) (r : Rail) (x : Window) :
    (s.setWindow r x).freeCtr = s.freeCtr := rfl
@[simp] theorem State.setWindow_pending (s : State) (r : Rail) (x : Window) :
    (s.setWindow r x).pending = s.pending := rfl

/-! ### setEngine -/

@[simp] theorem State.setEngine_held (s : State) (r : Rail) (x : Engine) :
    (s.setEngine r x).held = s.held := rfl
@[simp] theorem State.setEngine_odo (s : State) (r : Rail) (x : Engine) :
    (s.setEngine r x).odo = s.odo := rfl
@[simp] theorem State.setEngine_run (s : State) (r : Rail) (x : Engine) :
    (s.setEngine r x).run = s.run := rfl
@[simp] theorem State.setEngine_seq (s : State) (r : Rail) (x : Engine) :
    (s.setEngine r x).seq = s.seq := rfl
@[simp] theorem State.setEngine_lanes (s : State) (r : Rail) (x : Engine) :
    (s.setEngine r x).lanes = s.lanes := rfl
@[simp] theorem State.setEngine_probes (s : State) (r : Rail) (x : Engine) :
    (s.setEngine r x).probes = s.probes := rfl
@[simp] theorem State.setEngine_windows (s : State) (r : Rail) (x : Engine) :
    (s.setEngine r x).windows = s.windows := rfl
@[simp] theorem State.setEngine_zones (s : State) (r : Rail) (x : Engine) :
    (s.setEngine r x).zones = s.zones := rfl
@[simp] theorem State.setEngine_eval (s : State) (r : Rail) (x : Engine) :
    (s.setEngine r x).eval = s.eval := rfl
@[simp] theorem State.setEngine_marker (s : State) (r : Rail) (x : Engine) :
    (s.setEngine r x).marker = { s.marker with engines := s.marker.engines.set r x } := rfl
@[simp] theorem State.setEngine_link (s : State) (r : Rail) (x : Engine) :
    (s.setEngine r x).link = s.link := rfl
@[simp] theorem State.setEngine_params (s : State) (r : Rail) (x : Engine) :
    (s.setEngine r x).params = s.params := rfl
@[simp] theorem State.setEngine_pins (s : State) (r : Rail) (x : Engine) :
    (s.setEngine r x).pins = s.pins := rfl
@[simp] theorem State.setEngine_samples (s : State) (r : Rail) (x : Engine) :
    (s.setEngine r x).samples = s.samples := rfl
@[simp] theorem State.setEngine_freeCtr (s : State) (r : Rail) (x : Engine) :
    (s.setEngine r x).freeCtr = s.freeCtr := rfl
@[simp] theorem State.setEngine_pending (s : State) (r : Rail) (x : Engine) :
    (s.setEngine r x).pending = s.pending := rfl

/-! ### setQueue -/

@[simp] theorem State.setQueue_held (s : State) (r : Rail) (q : List MarkerEntry) :
    (s.setQueue r q).held = s.held := rfl
@[simp] theorem State.setQueue_odo (s : State) (r : Rail) (q : List MarkerEntry) :
    (s.setQueue r q).odo = s.odo := rfl
@[simp] theorem State.setQueue_run (s : State) (r : Rail) (q : List MarkerEntry) :
    (s.setQueue r q).run = s.run := rfl
@[simp] theorem State.setQueue_seq (s : State) (r : Rail) (q : List MarkerEntry) :
    (s.setQueue r q).seq = s.seq := rfl
@[simp] theorem State.setQueue_lanes (s : State) (r : Rail) (q : List MarkerEntry) :
    (s.setQueue r q).lanes = s.lanes := rfl
@[simp] theorem State.setQueue_probes (s : State) (r : Rail) (q : List MarkerEntry) :
    (s.setQueue r q).probes = s.probes := rfl
@[simp] theorem State.setQueue_windows (s : State) (r : Rail) (q : List MarkerEntry) :
    (s.setQueue r q).windows = s.windows := rfl
@[simp] theorem State.setQueue_zones (s : State) (r : Rail) (q : List MarkerEntry) :
    (s.setQueue r q).zones = s.zones := rfl
@[simp] theorem State.setQueue_eval (s : State) (r : Rail) (q : List MarkerEntry) :
    (s.setQueue r q).eval = s.eval := rfl
@[simp] theorem State.setQueue_marker (s : State) (r : Rail) (q : List MarkerEntry) :
    (s.setQueue r q).marker = { s.marker with engines := s.marker.engines.set r { s.marker.engines.get r with queue := q } } := rfl
@[simp] theorem State.setQueue_link (s : State) (r : Rail) (q : List MarkerEntry) :
    (s.setQueue r q).link = s.link := rfl
@[simp] theorem State.setQueue_params (s : State) (r : Rail) (q : List MarkerEntry) :
    (s.setQueue r q).params = s.params := rfl
@[simp] theorem State.setQueue_pins (s : State) (r : Rail) (q : List MarkerEntry) :
    (s.setQueue r q).pins = s.pins := rfl
@[simp] theorem State.setQueue_samples (s : State) (r : Rail) (q : List MarkerEntry) :
    (s.setQueue r q).samples = s.samples := rfl
@[simp] theorem State.setQueue_freeCtr (s : State) (r : Rail) (q : List MarkerEntry) :
    (s.setQueue r q).freeCtr = s.freeCtr := rfl
@[simp] theorem State.setQueue_pending (s : State) (r : Rail) (q : List MarkerEntry) :
    (s.setQueue r q).pending = s.pending := rfl

/-! ### enter -/

@[simp] theorem State.enter_held (s : State) (r : Rail) (e : EngineState) (v : Valves) :
    (s.enter r e v).held = s.held := rfl
@[simp] theorem State.enter_odo (s : State) (r : Rail) (e : EngineState) (v : Valves) :
    (s.enter r e v).odo = s.odo := rfl
@[simp] theorem State.enter_run (s : State) (r : Rail) (e : EngineState) (v : Valves) :
    (s.enter r e v).run = s.run := rfl
@[simp] theorem State.enter_seq (s : State) (r : Rail) (e : EngineState) (v : Valves) :
    (s.enter r e v).seq = s.seq := rfl
@[simp] theorem State.enter_lanes (s : State) (r : Rail) (e : EngineState) (v : Valves) :
    (s.enter r e v).lanes = s.lanes := rfl
@[simp] theorem State.enter_probes (s : State) (r : Rail) (e : EngineState) (v : Valves) :
    (s.enter r e v).probes = s.probes := rfl
@[simp] theorem State.enter_windows (s : State) (r : Rail) (e : EngineState) (v : Valves) :
    (s.enter r e v).windows = s.windows := rfl
@[simp] theorem State.enter_zones (s : State) (r : Rail) (e : EngineState) (v : Valves) :
    (s.enter r e v).zones = s.zones := rfl
@[simp] theorem State.enter_eval (s : State) (r : Rail) (e : EngineState) (v : Valves) :
    (s.enter r e v).eval = s.eval := rfl
@[simp] theorem State.enter_marker (s : State) (r : Rail) (e : EngineState) (v : Valves) :
    (s.enter r e v).marker = { s.marker with engines := s.marker.engines.set r { s.marker.engines.get r with state := e, valves := v } } := rfl
@[simp] theorem State.enter_link (s : State) (r : Rail) (e : EngineState) (v : Valves) :
    (s.enter r e v).link = s.link := rfl
@[simp] theorem State.enter_params (s : State) (r : Rail) (e : EngineState) (v : Valves) :
    (s.enter r e v).params = s.params := rfl
@[simp] theorem State.enter_pins (s : State) (r : Rail) (e : EngineState) (v : Valves) :
    (s.enter r e v).pins = s.pins := rfl
@[simp] theorem State.enter_samples (s : State) (r : Rail) (e : EngineState) (v : Valves) :
    (s.enter r e v).samples = s.samples := rfl
@[simp] theorem State.enter_freeCtr (s : State) (r : Rail) (e : EngineState) (v : Valves) :
    (s.enter r e v).freeCtr = s.freeCtr := rfl
@[simp] theorem State.enter_pending (s : State) (r : Rail) (e : EngineState) (v : Valves) :
    (s.enter r e v).pending = s.pending := rfl

/-! ### emit -/

@[simp] theorem State.emit_held (s : State) (x : Record) :
    (s.emit x).held = s.held := rfl
@[simp] theorem State.emit_odo (s : State) (x : Record) :
    (s.emit x).odo = s.odo := rfl
@[simp] theorem State.emit_run (s : State) (x : Record) :
    (s.emit x).run = s.run := rfl
@[simp] theorem State.emit_seq (s : State) (x : Record) :
    (s.emit x).seq = s.seq := rfl
@[simp] theorem State.emit_lanes (s : State) (x : Record) :
    (s.emit x).lanes = s.lanes := rfl
@[simp] theorem State.emit_probes (s : State) (x : Record) :
    (s.emit x).probes = s.probes := rfl
@[simp] theorem State.emit_windows (s : State) (x : Record) :
    (s.emit x).windows = s.windows := rfl
@[simp] theorem State.emit_zones (s : State) (x : Record) :
    (s.emit x).zones = s.zones := rfl
@[simp] theorem State.emit_eval (s : State) (x : Record) :
    (s.emit x).eval = s.eval := rfl
@[simp] theorem State.emit_marker (s : State) (x : Record) :
    (s.emit x).marker = s.marker := rfl
@[simp] theorem State.emit_link (s : State) (x : Record) :
    (s.emit x).link = s.link.offer s.odo.cp x := rfl
@[simp] theorem State.emit_params (s : State) (x : Record) :
    (s.emit x).params = s.params := rfl
@[simp] theorem State.emit_pins (s : State) (x : Record) :
    (s.emit x).pins = s.pins := rfl
@[simp] theorem State.emit_samples (s : State) (x : Record) :
    (s.emit x).samples = s.samples := rfl
@[simp] theorem State.emit_freeCtr (s : State) (x : Record) :
    (s.emit x).freeCtr = s.freeCtr := rfl
@[simp] theorem State.emit_pending (s : State) (x : Record) :
    (s.emit x).pending = s.pending := rfl

/-! ### event -/

@[simp] theorem State.event_held (s : State) (e : Event) :
    (s.event e).held = s.held := rfl
@[simp] theorem State.event_odo (s : State) (e : Event) :
    (s.event e).odo = s.odo := rfl
@[simp] theorem State.event_run (s : State) (e : Event) :
    (s.event e).run = s.run := rfl
@[simp] theorem State.event_seq (s : State) (e : Event) :
    (s.event e).seq = s.seq := rfl
@[simp] theorem State.event_lanes (s : State) (e : Event) :
    (s.event e).lanes = s.lanes := rfl
@[simp] theorem State.event_probes (s : State) (e : Event) :
    (s.event e).probes = s.probes := rfl
@[simp] theorem State.event_windows (s : State) (e : Event) :
    (s.event e).windows = s.windows := rfl
@[simp] theorem State.event_zones (s : State) (e : Event) :
    (s.event e).zones = s.zones := rfl
@[simp] theorem State.event_eval (s : State) (e : Event) :
    (s.event e).eval = s.eval := rfl
@[simp] theorem State.event_marker (s : State) (e : Event) :
    (s.event e).marker = s.marker := rfl
@[simp] theorem State.event_link (s : State) (e : Event) :
    (s.event e).link = s.link.offer s.odo.cp (.event s.odo.cp e) := rfl
@[simp] theorem State.event_params (s : State) (e : Event) :
    (s.event e).params = s.params := rfl
@[simp] theorem State.event_pins (s : State) (e : Event) :
    (s.event e).pins = s.pins := rfl
@[simp] theorem State.event_samples (s : State) (e : Event) :
    (s.event e).samples = s.samples := rfl
@[simp] theorem State.event_freeCtr (s : State) (e : Event) :
    (s.event e).freeCtr = s.freeCtr := rfl
@[simp] theorem State.event_pending (s : State) (e : Event) :
    (s.event e).pending = s.pending := rfl

/-! ### reply -/

@[simp] theorem State.reply_held (s : State) (h : Sender) (code : Byte) (x : Result) (bs : List Byte) :
    (s.reply h code x bs).held = s.held := rfl
@[simp] theorem State.reply_odo (s : State) (h : Sender) (code : Byte) (x : Result) (bs : List Byte) :
    (s.reply h code x bs).odo = s.odo := rfl
@[simp] theorem State.reply_run (s : State) (h : Sender) (code : Byte) (x : Result) (bs : List Byte) :
    (s.reply h code x bs).run = s.run := rfl
@[simp] theorem State.reply_seq (s : State) (h : Sender) (code : Byte) (x : Result) (bs : List Byte) :
    (s.reply h code x bs).seq = s.seq := rfl
@[simp] theorem State.reply_lanes (s : State) (h : Sender) (code : Byte) (x : Result) (bs : List Byte) :
    (s.reply h code x bs).lanes = s.lanes := rfl
@[simp] theorem State.reply_probes (s : State) (h : Sender) (code : Byte) (x : Result) (bs : List Byte) :
    (s.reply h code x bs).probes = s.probes := rfl
@[simp] theorem State.reply_windows (s : State) (h : Sender) (code : Byte) (x : Result) (bs : List Byte) :
    (s.reply h code x bs).windows = s.windows := rfl
@[simp] theorem State.reply_zones (s : State) (h : Sender) (code : Byte) (x : Result) (bs : List Byte) :
    (s.reply h code x bs).zones = s.zones := rfl
@[simp] theorem State.reply_eval (s : State) (h : Sender) (code : Byte) (x : Result) (bs : List Byte) :
    (s.reply h code x bs).eval = s.eval := rfl
@[simp] theorem State.reply_marker (s : State) (h : Sender) (code : Byte) (x : Result) (bs : List Byte) :
    (s.reply h code x bs).marker = s.marker := rfl
@[simp] theorem State.reply_link (s : State) (h : Sender) (code : Byte) (x : Result) (bs : List Byte) :
    (s.reply h code x bs).link = s.link.sendTo h.node s.odo.cp (.reply h.tag code x bs) := rfl
@[simp] theorem State.reply_params (s : State) (h : Sender) (code : Byte) (x : Result) (bs : List Byte) :
    (s.reply h code x bs).params = s.params := rfl
@[simp] theorem State.reply_pins (s : State) (h : Sender) (code : Byte) (x : Result) (bs : List Byte) :
    (s.reply h code x bs).pins = s.pins := rfl
@[simp] theorem State.reply_samples (s : State) (h : Sender) (code : Byte) (x : Result) (bs : List Byte) :
    (s.reply h code x bs).samples = s.samples := rfl
@[simp] theorem State.reply_freeCtr (s : State) (h : Sender) (code : Byte) (x : Result) (bs : List Byte) :
    (s.reply h code x bs).freeCtr = s.freeCtr := rfl
@[simp] theorem State.reply_pending (s : State) (h : Sender) (code : Byte) (x : Result) (bs : List Byte) :
    (s.reply h code x bs).pending = s.pending := rfl

/-! ### refuse -/

@[simp] theorem State.refuse_held (s : State) (h : Sender) (code : Byte) (x : Result) :
    (s.refuse h code x).held = s.held := rfl
@[simp] theorem State.refuse_odo (s : State) (h : Sender) (code : Byte) (x : Result) :
    (s.refuse h code x).odo = s.odo := rfl
@[simp] theorem State.refuse_run (s : State) (h : Sender) (code : Byte) (x : Result) :
    (s.refuse h code x).run = s.run := rfl
@[simp] theorem State.refuse_seq (s : State) (h : Sender) (code : Byte) (x : Result) :
    (s.refuse h code x).seq = s.seq := rfl
@[simp] theorem State.refuse_lanes (s : State) (h : Sender) (code : Byte) (x : Result) :
    (s.refuse h code x).lanes = s.lanes := rfl
@[simp] theorem State.refuse_probes (s : State) (h : Sender) (code : Byte) (x : Result) :
    (s.refuse h code x).probes = s.probes := rfl
@[simp] theorem State.refuse_windows (s : State) (h : Sender) (code : Byte) (x : Result) :
    (s.refuse h code x).windows = s.windows := rfl
@[simp] theorem State.refuse_zones (s : State) (h : Sender) (code : Byte) (x : Result) :
    (s.refuse h code x).zones = s.zones := rfl
@[simp] theorem State.refuse_eval (s : State) (h : Sender) (code : Byte) (x : Result) :
    (s.refuse h code x).eval = s.eval := rfl
@[simp] theorem State.refuse_marker (s : State) (h : Sender) (code : Byte) (x : Result) :
    (s.refuse h code x).marker = s.marker := rfl
@[simp] theorem State.refuse_link (s : State) (h : Sender) (code : Byte) (x : Result) :
    (s.refuse h code x).link = s.link.sendTo h.node s.odo.cp (.reply h.tag code x []) := rfl
@[simp] theorem State.refuse_params (s : State) (h : Sender) (code : Byte) (x : Result) :
    (s.refuse h code x).params = s.params := rfl
@[simp] theorem State.refuse_pins (s : State) (h : Sender) (code : Byte) (x : Result) :
    (s.refuse h code x).pins = s.pins := rfl
@[simp] theorem State.refuse_samples (s : State) (h : Sender) (code : Byte) (x : Result) :
    (s.refuse h code x).samples = s.samples := rfl
@[simp] theorem State.refuse_freeCtr (s : State) (h : Sender) (code : Byte) (x : Result) :
    (s.refuse h code x).freeCtr = s.freeCtr := rfl
@[simp] theorem State.refuse_pending (s : State) (h : Sender) (code : Byte) (x : Result) :
    (s.refuse h code x).pending = s.pending := rfl

/-! ### refuseRun -/

@[simp] theorem State.refuseRun_held (s : State) (h : Sender) (code : Byte) (x : Result) :
    (s.refuseRun h code x).held = s.held := rfl
@[simp] theorem State.refuseRun_odo (s : State) (h : Sender) (code : Byte) (x : Result) :
    (s.refuseRun h code x).odo = s.odo := rfl
@[simp] theorem State.refuseRun_run (s : State) (h : Sender) (code : Byte) (x : Result) :
    (s.refuseRun h code x).run = s.run := rfl
@[simp] theorem State.refuseRun_seq (s : State) (h : Sender) (code : Byte) (x : Result) :
    (s.refuseRun h code x).seq = s.seq := rfl
@[simp] theorem State.refuseRun_lanes (s : State) (h : Sender) (code : Byte) (x : Result) :
    (s.refuseRun h code x).lanes = s.lanes := rfl
@[simp] theorem State.refuseRun_probes (s : State) (h : Sender) (code : Byte) (x : Result) :
    (s.refuseRun h code x).probes = s.probes := rfl
@[simp] theorem State.refuseRun_windows (s : State) (h : Sender) (code : Byte) (x : Result) :
    (s.refuseRun h code x).windows = s.windows := rfl
@[simp] theorem State.refuseRun_zones (s : State) (h : Sender) (code : Byte) (x : Result) :
    (s.refuseRun h code x).zones = s.zones := rfl
@[simp] theorem State.refuseRun_eval (s : State) (h : Sender) (code : Byte) (x : Result) :
    (s.refuseRun h code x).eval = s.eval := rfl
@[simp] theorem State.refuseRun_marker (s : State) (h : Sender) (code : Byte) (x : Result) :
    (s.refuseRun h code x).marker = s.marker := rfl
@[simp] theorem State.refuseRun_link (s : State) (h : Sender) (code : Byte) (x : Result) :
    (s.refuseRun h code x).link = s.link.sendTo h.node s.odo.cp (.reply h.tag code x (u8 s.run.state.code)) := rfl
@[simp] theorem State.refuseRun_params (s : State) (h : Sender) (code : Byte) (x : Result) :
    (s.refuseRun h code x).params = s.params := rfl
@[simp] theorem State.refuseRun_pins (s : State) (h : Sender) (code : Byte) (x : Result) :
    (s.refuseRun h code x).pins = s.pins := rfl
@[simp] theorem State.refuseRun_samples (s : State) (h : Sender) (code : Byte) (x : Result) :
    (s.refuseRun h code x).samples = s.samples := rfl
@[simp] theorem State.refuseRun_freeCtr (s : State) (h : Sender) (code : Byte) (x : Result) :
    (s.refuseRun h code x).freeCtr = s.freeCtr := rfl
@[simp] theorem State.refuseRun_pending (s : State) (h : Sender) (code : Byte) (x : Result) :
    (s.refuseRun h code x).pending = s.pending := rfl

/-! ### take -/

@[simp] theorem State.take_held (s : State) (h : Sender) (code : Byte) :
    (s.take h code).held = s.held := rfl
@[simp] theorem State.take_odo (s : State) (h : Sender) (code : Byte) :
    (s.take h code).odo = s.odo := rfl
@[simp] theorem State.take_run (s : State) (h : Sender) (code : Byte) :
    (s.take h code).run = s.run := rfl
@[simp] theorem State.take_seq (s : State) (h : Sender) (code : Byte) :
    (s.take h code).seq = s.seq := rfl
@[simp] theorem State.take_lanes (s : State) (h : Sender) (code : Byte) :
    (s.take h code).lanes = s.lanes := rfl
@[simp] theorem State.take_probes (s : State) (h : Sender) (code : Byte) :
    (s.take h code).probes = s.probes := rfl
@[simp] theorem State.take_windows (s : State) (h : Sender) (code : Byte) :
    (s.take h code).windows = s.windows := rfl
@[simp] theorem State.take_zones (s : State) (h : Sender) (code : Byte) :
    (s.take h code).zones = s.zones := rfl
@[simp] theorem State.take_eval (s : State) (h : Sender) (code : Byte) :
    (s.take h code).eval = s.eval := rfl
@[simp] theorem State.take_marker (s : State) (h : Sender) (code : Byte) :
    (s.take h code).marker = s.marker := rfl
@[simp] theorem State.take_link (s : State) (h : Sender) (code : Byte) :
    (s.take h code).link = { s.link with intake := takeHead s.link.intake h code } := rfl
@[simp] theorem State.take_params (s : State) (h : Sender) (code : Byte) :
    (s.take h code).params = s.params := rfl
@[simp] theorem State.take_pins (s : State) (h : Sender) (code : Byte) :
    (s.take h code).pins = s.pins := rfl
@[simp] theorem State.take_samples (s : State) (h : Sender) (code : Byte) :
    (s.take h code).samples = s.samples := rfl
@[simp] theorem State.take_freeCtr (s : State) (h : Sender) (code : Byte) :
    (s.take h code).freeCtr = s.freeCtr := rfl
@[simp] theorem State.take_pending (s : State) (h : Sender) (code : Byte) :
    (s.take h code).pending = s.pending := rfl

/-! ### putFirst -/

@[simp] theorem State.putFirst_held (s : State) (i : Instr) :
    (s.putFirst i).held = s.held := rfl
@[simp] theorem State.putFirst_odo (s : State) (i : Instr) :
    (s.putFirst i).odo = s.odo := rfl
@[simp] theorem State.putFirst_run (s : State) (i : Instr) :
    (s.putFirst i).run = s.run := rfl
@[simp] theorem State.putFirst_seq (s : State) (i : Instr) :
    (s.putFirst i).seq = s.seq := rfl
@[simp] theorem State.putFirst_lanes (s : State) (i : Instr) :
    (s.putFirst i).lanes = s.lanes := rfl
@[simp] theorem State.putFirst_probes (s : State) (i : Instr) :
    (s.putFirst i).probes = s.probes := rfl
@[simp] theorem State.putFirst_windows (s : State) (i : Instr) :
    (s.putFirst i).windows = s.windows := rfl
@[simp] theorem State.putFirst_zones (s : State) (i : Instr) :
    (s.putFirst i).zones = s.zones := rfl
@[simp] theorem State.putFirst_eval (s : State) (i : Instr) :
    (s.putFirst i).eval = s.eval := rfl
@[simp] theorem State.putFirst_marker (s : State) (i : Instr) :
    (s.putFirst i).marker = s.marker := rfl
@[simp] theorem State.putFirst_link (s : State) (i : Instr) :
    (s.putFirst i).link = s.link := rfl
@[simp] theorem State.putFirst_params (s : State) (i : Instr) :
    (s.putFirst i).params = s.params := rfl
@[simp] theorem State.putFirst_pins (s : State) (i : Instr) :
    (s.putFirst i).pins = s.pins := rfl
@[simp] theorem State.putFirst_samples (s : State) (i : Instr) :
    (s.putFirst i).samples = s.samples := rfl
@[simp] theorem State.putFirst_freeCtr (s : State) (i : Instr) :
    (s.putFirst i).freeCtr = s.freeCtr := rfl
@[simp] theorem State.putFirst_pending (s : State) (i : Instr) :
    (s.putFirst i).pending = i :: s.pending := rfl

/-! ### drew -/

@[simp] theorem State.drew_held (s : State) (n : Nat) :
    (s.drew n).held = s.held := rfl
@[simp] theorem State.drew_odo (s : State) (n : Nat) :
    (s.drew n).odo = s.odo := rfl
@[simp] theorem State.drew_run (s : State) (n : Nat) :
    (s.drew n).run = s.run := rfl
@[simp] theorem State.drew_seq (s : State) (n : Nat) :
    (s.drew n).seq = s.seq := rfl
@[simp] theorem State.drew_lanes (s : State) (n : Nat) :
    (s.drew n).lanes = s.lanes := rfl
@[simp] theorem State.drew_probes (s : State) (n : Nat) :
    (s.drew n).probes = s.probes := rfl
@[simp] theorem State.drew_windows (s : State) (n : Nat) :
    (s.drew n).windows = s.windows := rfl
@[simp] theorem State.drew_zones (s : State) (n : Nat) :
    (s.drew n).zones = s.zones := rfl
@[simp] theorem State.drew_eval (s : State) (n : Nat) :
    (s.drew n).eval = s.eval := rfl
@[simp] theorem State.drew_marker (s : State) (n : Nat) :
    (s.drew n).marker = s.marker := rfl
@[simp] theorem State.drew_link (s : State) (n : Nat) :
    (s.drew n).link = s.link := rfl
@[simp] theorem State.drew_params (s : State) (n : Nat) :
    (s.drew n).params = s.params := rfl
@[simp] theorem State.drew_pins (s : State) (n : Nat) :
    (s.drew n).pins = s.pins := rfl
@[simp] theorem State.drew_samples (s : State) (n : Nat) :
    (s.drew n).samples = s.samples := rfl
@[simp] theorem State.drew_freeCtr (s : State) (n : Nat) :
    (s.drew n).freeCtr = s.freeCtr + n := rfl
@[simp] theorem State.drew_pending (s : State) (n : Nat) :
    (s.drew n).pending = s.pending := rfl

/-! ### bumpGeneration -/

@[simp] theorem State.bumpGeneration_held (s : State) :
    (s.bumpGeneration).held = s.held := rfl
@[simp] theorem State.bumpGeneration_odo (s : State) :
    (s.bumpGeneration).odo = s.odo := rfl
@[simp] theorem State.bumpGeneration_run (s : State) :
    (s.bumpGeneration).run = { s.run with generation := s.run.generation + 1 } := rfl
@[simp] theorem State.bumpGeneration_seq (s : State) :
    (s.bumpGeneration).seq = s.seq := rfl
@[simp] theorem State.bumpGeneration_lanes (s : State) :
    (s.bumpGeneration).lanes = s.lanes := rfl
@[simp] theorem State.bumpGeneration_probes (s : State) :
    (s.bumpGeneration).probes = s.probes := rfl
@[simp] theorem State.bumpGeneration_windows (s : State) :
    (s.bumpGeneration).windows = s.windows := rfl
@[simp] theorem State.bumpGeneration_zones (s : State) :
    (s.bumpGeneration).zones = s.zones := rfl
@[simp] theorem State.bumpGeneration_eval (s : State) :
    (s.bumpGeneration).eval = s.eval := rfl
@[simp] theorem State.bumpGeneration_marker (s : State) :
    (s.bumpGeneration).marker = s.marker := rfl
@[simp] theorem State.bumpGeneration_link (s : State) :
    (s.bumpGeneration).link = s.link := rfl
@[simp] theorem State.bumpGeneration_params (s : State) :
    (s.bumpGeneration).params = s.params := rfl
@[simp] theorem State.bumpGeneration_pins (s : State) :
    (s.bumpGeneration).pins = s.pins := rfl
@[simp] theorem State.bumpGeneration_samples (s : State) :
    (s.bumpGeneration).samples = s.samples := rfl
@[simp] theorem State.bumpGeneration_freeCtr (s : State) :
    (s.bumpGeneration).freeCtr = s.freeCtr := rfl
@[simp] theorem State.bumpGeneration_pending (s : State) :
    (s.bumpGeneration).pending = s.pending := rfl

/-! ### updateLead -/

@[simp] theorem State.updateLead_held (s : State) :
    (s.updateLead).held = s.held := rfl
@[simp] theorem State.updateLead_odo (s : State) :
    (s.updateLead).odo = s.odo := rfl
@[simp] theorem State.updateLead_run (s : State) :
    (s.updateLead).run = s.run := rfl
@[simp] theorem State.updateLead_seq (s : State) :
    (s.updateLead).seq = s.seq := rfl
@[simp] theorem State.updateLead_lanes (s : State) :
    (s.updateLead).lanes = s.lanes := rfl
@[simp] theorem State.updateLead_probes (s : State) :
    (s.updateLead).probes = s.probes := rfl
@[simp] theorem State.updateLead_windows (s : State) :
    (s.updateLead).windows = s.windows := rfl
@[simp] theorem State.updateLead_zones (s : State) :
    (s.updateLead).zones = s.zones := rfl
@[simp] theorem State.updateLead_eval (s : State) :
    (s.updateLead).eval = s.eval := rfl
@[simp] theorem State.updateLead_marker (s : State) :
    (s.updateLead).marker = { s.marker with lead := leadOf s.odo.speed s.params.valveLatencyUs } := rfl
@[simp] theorem State.updateLead_link (s : State) :
    (s.updateLead).link = s.link := rfl
@[simp] theorem State.updateLead_params (s : State) :
    (s.updateLead).params = s.params := rfl
@[simp] theorem State.updateLead_pins (s : State) :
    (s.updateLead).pins = s.pins := rfl
@[simp] theorem State.updateLead_samples (s : State) :
    (s.updateLead).samples = s.samples := rfl
@[simp] theorem State.updateLead_freeCtr (s : State) :
    (s.updateLead).freeCtr = s.freeCtr := rfl
@[simp] theorem State.updateLead_pending (s : State) :
    (s.updateLead).pending = s.pending := rfl

/-! ### eventIf -/

@[simp] theorem State.eventIf_held (s : State) (c : Bool) (e : Event) :
    (s.eventIf c e).held = s.held := by cases c <;> rfl
@[simp] theorem State.eventIf_odo (s : State) (c : Bool) (e : Event) :
    (s.eventIf c e).odo = s.odo := by cases c <;> rfl
@[simp] theorem State.eventIf_run (s : State) (c : Bool) (e : Event) :
    (s.eventIf c e).run = s.run := by cases c <;> rfl
@[simp] theorem State.eventIf_seq (s : State) (c : Bool) (e : Event) :
    (s.eventIf c e).seq = s.seq := by cases c <;> rfl
@[simp] theorem State.eventIf_lanes (s : State) (c : Bool) (e : Event) :
    (s.eventIf c e).lanes = s.lanes := by cases c <;> rfl
@[simp] theorem State.eventIf_probes (s : State) (c : Bool) (e : Event) :
    (s.eventIf c e).probes = s.probes := by cases c <;> rfl
@[simp] theorem State.eventIf_windows (s : State) (c : Bool) (e : Event) :
    (s.eventIf c e).windows = s.windows := by cases c <;> rfl
@[simp] theorem State.eventIf_zones (s : State) (c : Bool) (e : Event) :
    (s.eventIf c e).zones = s.zones := by cases c <;> rfl
@[simp] theorem State.eventIf_eval (s : State) (c : Bool) (e : Event) :
    (s.eventIf c e).eval = s.eval := by cases c <;> rfl
@[simp] theorem State.eventIf_marker (s : State) (c : Bool) (e : Event) :
    (s.eventIf c e).marker = s.marker := by cases c <;> rfl
@[simp] theorem State.eventIf_params (s : State) (c : Bool) (e : Event) :
    (s.eventIf c e).params = s.params := by cases c <;> rfl
@[simp] theorem State.eventIf_pins (s : State) (c : Bool) (e : Event) :
    (s.eventIf c e).pins = s.pins := by cases c <;> rfl
@[simp] theorem State.eventIf_samples (s : State) (c : Bool) (e : Event) :
    (s.eventIf c e).samples = s.samples := by cases c <;> rfl
@[simp] theorem State.eventIf_freeCtr (s : State) (c : Bool) (e : Event) :
    (s.eventIf c e).freeCtr = s.freeCtr := by cases c <;> rfl
@[simp] theorem State.eventIf_pending (s : State) (c : Bool) (e : Event) :
    (s.eventIf c e).pending = s.pending := by cases c <;> rfl

end Sys2Proof.Machine
end

