-- ==== Sys2Proof/Laws/Frames.lean ====
section
/-! SUPPORT. For each shared operation, once, which blocks of the state it can change. -/
namespace Sys2Proof.Machine

/-! ## The relation -/

theorem changesOnly_refl (bs : List Block) (s : State) : changesOnly bs s s := by
  intro b; right; cases b <;> rfl

theorem Block.same_trans {b : Block} {s t u : State} (h : b.same s t) (k : b.same t u) : b.same s u := by
  cases b <;> simp_all [Block.same]

theorem changesOnly_trans {bs : List Block} {s t u : State} (h : changesOnly bs s t)
    (k : changesOnly bs t u) : changesOnly bs s u := by
  intro b
  rcases h b with h | h
  · exact .inl h
  · rcases k b with k | k
    · exact .inl k
    · exact .inr (Block.same_trans h k)

theorem changesOnly_mono {bs cs : List Block} {s t : State} (h : changesOnly bs s t)
    (hb : ∀ b ∈ bs, b ∈ cs) : changesOnly cs s t := by
  intro b
  rcases h b with h | h
  · exact .inl (hb b h)
  · exact .inr h

/-- A block that is not listed is unchanged. -/
theorem changesOnly_same {bs : List Block} {s t : State} (h : changesOnly bs s t) (b : Block)
    (hb : b ∉ bs) : b.same s t := (h b).resolve_left hb

theorem changesOnly_foldl {α : Type} {bs : List Block} (f : State → α → State)
    (h : ∀ s a, changesOnly bs s (f s a)) (l : List α) (s : State) : changesOnly bs s (l.foldl f s) := by
  induction l generalizing s with
  | nil => exact changesOnly_refl bs s
  | cons a l ih => exact changesOnly_trans (h s a) (ih (f s a))

/-! ## Records -/

theorem emit_changes (s : State) (r : Record) : changesOnly [.link] s (s.emit r) := by
  intro b; cases b <;> simp [Block.same]

theorem event_changes (s : State) (e : Event) : changesOnly [.link] s (s.event e) := emit_changes s _

theorem eventIf_changes (s : State) (c : Bool) (e : Event) : changesOnly [.link] s (s.eventIf c e) := by
  cases c
  · exact changesOnly_refl _ s
  · exact event_changes s e

theorem reply_changes (s : State) (h : Sender) (code : Byte) (x : Result) (bs : List Byte) :
    changesOnly [.link] s (s.reply h code x bs) := by
  intro b; cases b <;> simp [Block.same]

theorem take_changes (s : State) (h : Sender) (code : Byte) : changesOnly [.link] s (s.take h code) := by
  intro b; cases b <;> simp [Block.same]

/-! ## One block replaced -/

theorem setOdo_changes (s : State) (x : Odometry) : changesOnly [.odo] s (s.setOdo x) := by
  intro b; cases b <;> simp [Block.same]

theorem setRun_changes (s : State) (x : RunControl) : changesOnly [.run] s (s.setRun x) := by
  intro b; cases b <;> simp [Block.same]

theorem setSeq_changes (s : State) (x : Sequencer) : changesOnly [.seq] s (s.setSeq x) := by
  intro b; cases b <;> simp [Block.same]

theorem setLane_changes (s : State) (r : Rail) (x : Lane) : changesOnly [.lanes] s (s.setLane r x) := by
  intro b; cases b <;> simp [Block.same]

theorem setWindow_changes (s : State) (r : Rail) (x : Window) :
    changesOnly [.windows] s (s.setWindow r x) := by
  intro b; cases b <;> simp [Block.same]

theorem setWindows_changes (s : State) (x : PerRail Window) :
    changesOnly [.windows] s (s.setWindows x) := by
  intro b; cases b <;> simp [Block.same]

theorem setZones_changes (s : State) (x : ZoneList) : changesOnly [.zones] s (s.setZones x) := by
  intro b; cases b <;> simp [Block.same]

theorem setEval_changes (s : State) (x : Evaluator) : changesOnly [.eval] s (s.setEval x) := by
  intro b; cases b <;> simp [Block.same]

theorem setMarker_changes (s : State) (x : Marker) : changesOnly [.marker] s (s.setMarker x) := by
  intro b; cases b <;> simp [Block.same]

theorem setEngine_changes (s : State) (r : Rail) (x : Engine) :
    changesOnly [.marker] s (s.setEngine r x) := setMarker_changes s _

theorem setQueue_changes (s : State) (r : Rail) (q : List MarkerEntry) :
    changesOnly [.marker] s (s.setQueue r q) := setMarker_changes s _

theorem putFirst_changes (s : State) (i : Instr) : changesOnly [.pending] s (s.putFirst i) := by
  intro b; cases b <;> simp [Block.same]

/-- The judging of the drain changes the queue alone (R30). -/
theorem judgeDrain_changes (s : State) : changesOnly [.pending] s s.judgeDrain := by
  unfold State.judgeDrain; split
  · exact putFirst_changes _ _
  · exact changesOnly_refl _ s

theorem judgeRelease_changes (s : State) (k : CycleKind) : changesOnly [.pending] s (s.judgeRelease k) := by
  unfold State.judgeRelease; split
  · exact judgeDrain_changes s
  · exact changesOnly_refl _ s

theorem setLink_changes (s : State) (x : LinkState) : changesOnly [.link] s (s.setLink x) := by
  intro b; cases b <;> simp [Block.same]

/-! ## Conditions -/

theorem followLimit_changes (s : State) : changesOnly [.odo, .link] s s.followLimit := by
  unfold State.followLimit
  have h := changesOnly_mono (cs := [.odo, .link]) (setOdo_changes s { s.odo with limit := limitOf s.odo.cp })
    (by simp)
  dsimp only
  split
  · exact h
  · exact changesOnly_trans h (changesOnly_mono (eventIf_changes _ _ _) (by simp))
  · exact changesOnly_trans h (changesOnly_mono (event_changes _ _) (by simp))
  · exact changesOnly_trans h (changesOnly_mono (event_changes _ _) (by simp))

theorem followRetrace_changes (s : State) : changesOnly [.odo, .link] s s.followRetrace :=
  changesOnly_trans (changesOnly_mono (setOdo_changes s _) (by simp))
    (changesOnly_mono (eventIf_changes _ _ _) (by simp))

theorem clearStandstill_changes (s : State) : changesOnly [.odo, .link] s s.clearStandstill :=
  changesOnly_trans (changesOnly_mono (setOdo_changes s _) (by simp))
    (changesOnly_mono (eventIf_changes _ _ _) (by simp))

theorem settleKeepAlive_changes (s : State) : changesOnly [.seq] s s.settleKeepAlive := by
  unfold State.settleKeepAlive
  split
  · exact changesOnly_refl _ s
  · exact setSeq_changes s _

theorem markStopping_changes (s : State) : changesOnly [.seq] s s.markStopping := by
  unfold State.markStopping
  split
  · exact changesOnly_refl _ s
  · exact setSeq_changes s _

theorem judgeTick_changes (s : State) : changesOnly [.odo, .seq, .link] s s.judgeTick :=
  changesOnly_trans (changesOnly_trans (changesOnly_trans
    (changesOnly_mono (followLimit_changes s) (by simp))
    (changesOnly_mono (followRetrace_changes _) (by simp)))
    (changesOnly_mono (clearStandstill_changes _) (by simp)))
    (changesOnly_mono (settleKeepAlive_changes _) (by simp))

/-! ## Marking -/

theorem dueTestLoop_changes (r : Rail) (n : Nat) (s : State) :
    changesOnly [.marker, .link] s (dueTestLoop r n s) := by
  induction n generalizing s with
  | zero => exact changesOnly_refl _ s
  | succ n ih =>
    unfold dueTestLoop
    split
    · exact changesOnly_refl _ s
    · split
      · exact changesOnly_trans (changesOnly_trans
          (changesOnly_mono (setQueue_changes s r _) (by simp))
          (changesOnly_mono (emit_changes _ _) (by simp))) (ih _)
      · exact changesOnly_mono (setQueue_changes s r _) (by simp)

theorem dueTest_changes (s : State) (r : Rail) : changesOnly [.marker, .link] s (s.dueTest r) :=
  dueTestLoop_changes r _ s

theorem dueTests_changes (s : State) : changesOnly [.marker, .link] s s.dueTests :=
  changesOnly_trans (dueTest_changes s .a) (dueTest_changes _ .b)

theorem takeOffer_changes (s : State) (r : Rail) (target : Int) (spray : Fin 7) (cls : Fin 16) :
    changesOnly [.marker] s (s.takeOffer r target spray cls) := by
  unfold State.takeOffer
  split
  · exact setQueue_changes s r _
  · exact changesOnly_refl _ s

/-! ## Evaluation -/

theorem markerOffer_changes (s : State) (r : Rail) (spray : Option (Fin 7)) (cls : Fin 16) (tick : Int) :
    changesOnly [.eval, .marker, .link] s (s.markerOffer r spray cls tick) := by
  unfold State.markerOffer
  split
  · exact changesOnly_refl _ s
  · exact changesOnly_mono (takeOffer_changes _ _ _ _ _) (by simp)

theorem updateAlert_changes (s : State) (urgent : Bool) (r : Rail) (cls : Fin 16) (tick : Int) :
    changesOnly [.eval, .marker, .link] s (s.updateAlert urgent r cls tick) := by
  unfold State.updateAlert
  split
  · exact changesOnly_mono (setEval_changes _ _) (by simp)
  · exact changesOnly_refl _ _

theorem issueFinding_changes (s : State) (r : Rail) (p : Fin 32) (run : PatternRun) (capped : Bool) :
    changesOnly [.eval, .marker, .link] s (s.issueFinding r p run capped) :=
  changesOnly_trans (changesOnly_trans (changesOnly_trans (markerOffer_changes _ _ _ _ _)
    (updateAlert_changes _ _ _ _ _)) (changesOnly_mono (emit_changes _ _) (by simp)))
    (changesOnly_mono (dueTest_changes _ _) (by simp))

theorem setPatternRun_changes (s : State) (r : Rail) (p : Fin 32) (run : PatternRun) :
    changesOnly [.eval, .marker, .link] s (s.setPatternRun r p run) :=
  changesOnly_mono (setEval_changes _ _) (by simp)

theorem setGapRun_changes (s : State) (r : Rail) (g : GapRun) :
    changesOnly [.eval, .marker, .link] s (s.setGapRun r g) :=
  changesOnly_mono (setEval_changes _ _) (by simp)

theorem endRunOf_changes (s : State) (r : Rail) (p : Fin 32) :
    changesOnly [.eval, .marker, .link] s (s.endRunOf r p) := by
  unfold State.endRunOf
  dsimp only
  split
  · exact changesOnly_trans (setPatternRun_changes s r p _) (issueFinding_changes _ _ _ _ _)
  · exact setPatternRun_changes s r p _

theorem evalPattern_changes (s : State) (r : Rail) (c : Int) (p : Fin 32) :
    changesOnly [.eval, .marker, .link] s (s.evalPattern r c p) := by
  unfold State.evalPattern
  dsimp only
  split
  · split
    · split
      · exact changesOnly_trans (setPatternRun_changes s r p _) (issueFinding_changes _ _ _ _ _)
      · exact setPatternRun_changes s r p _
    · exact endRunOf_changes s r p
  · exact changesOnly_refl _ s

theorem issueGap_changes (s : State) (r : Rail) (g : GapRun) (capped : Bool) :
    changesOnly [.eval, .marker, .link] s (s.issueGap r g capped) :=
  changesOnly_mono (emit_changes _ _) (by simp)

theorem endGap_changes (s : State) (r : Rail) : changesOnly [.eval, .marker, .link] s (s.endGap r) := by
  unfold State.endGap
  dsimp only
  split
  · exact changesOnly_trans (setGapRun_changes s r _) (issueGap_changes _ _ _ _)
  · exact setGapRun_changes s r _

theorem evalGap_changes (s : State) (r : Rail) (c : Int) :
    changesOnly [.eval, .marker, .link] s (s.evalGap r c) := by
  unfold State.evalGap
  dsimp only
  split
  · exact endGap_changes s r
  · split
    · exact changesOnly_trans (setGapRun_changes s r _) (issueGap_changes _ _ _ _)
    · exact setGapRun_changes s r _

/-- An evaluation changes the pattern runs, the gap run, the alert record, the marker queue and the link, and
nothing else (R128). -/
theorem evaluate_changes (s : State) (r : Rail) (c : Int) :
    changesOnly [.eval, .marker, .link] s (s.evaluate r c) :=
  changesOnly_trans (changesOnly_foldl _ (fun s p => evalPattern_changes s r c p) _ s)
    (evalGap_changes _ r c)

theorem flush_changes (s : State) (r : Rail) : changesOnly [.eval, .marker, .link] s (s.flush r) :=
  changesOnly_trans (changesOnly_foldl _ (fun s p => endRunOf_changes s r p) _ s) (endGap_changes _ r)

/-! ## Windows -/

/-- Closing a cell changes its window, the Zone List by expiry, and what its evaluation changes (R92). -/
theorem closeCell_changes (s : State) (r : Rail) (drain : Bool) :
    changesOnly [.windows, .zones, .eval, .marker, .link] s (s.closeCell r drain) := by
  unfold State.closeCell
  dsimp only
  have h : changesOnly [.windows, .zones, .eval, .marker, .link] s
      ((s.setWindow r (s.closedWindow r drain)).expireZones) :=
    changesOnly_trans (changesOnly_mono (setWindow_changes s r _) (by simp))
      (changesOnly_mono (setZones_changes _ _) (by simp))
  split
  · exact changesOnly_trans h (changesOnly_mono (evaluate_changes _ _ _) (by simp))
  · exact h

theorem closeCells_changes (r : Rail) (drain : Bool) (n : Nat) (s : State) :
    changesOnly [.windows, .zones, .eval, .marker, .link] s (closeCells r drain n s) := by
  induction n generalizing s with
  | zero => exact changesOnly_refl _ s
  | succ n ih => exact changesOnly_trans (closeCell_changes s r drain) (ih _)

theorem followCloseLine_changes (s : State) (r : Rail) :
    changesOnly [.windows, .zones, .eval, .marker, .link] s (s.followCloseLine r) := by
  unfold State.followCloseLine
  split
  · exact changesOnly_refl _ s
  · exact closeCells_changes r _ _ s

theorem drainRail_changes (s : State) (r : Rail) :
    changesOnly [.windows, .zones, .eval, .marker, .link] s (s.drainRail r) :=
  changesOnly_trans (changesOnly_trans (closeCells_changes r true _ s) (closeCells_changes r false 3 _))
    (changesOnly_mono (flush_changes _ r) (by simp))

theorem enterHit_changes (s : State) (h : PlacedHit) : changesOnly [.windows, .link] s (s.enterHit h) := by
  unfold State.enterHit
  dsimp only
  split
  · exact changesOnly_refl _ s
  · exact changesOnly_refl _ s
  · exact changesOnly_mono (setWindow_changes s _ _) (by simp)
  · exact changesOnly_mono (setWindow_changes s _ _) (by simp)
  · exact changesOnly_trans (changesOnly_mono (setWindow_changes s _ _) (by simp))
      (changesOnly_mono (emit_changes _ _) (by simp))

theorem handOn_changes (s : State) (h : PlacedHit) : changesOnly [.windows, .link] s (s.handOn h) := by
  unfold State.handOn
  split
  · exact enterHit_changes s h
  · exact changesOnly_mono (setWindow_changes s _ _) (by simp)

theorem handGate_changes (s t : State) (r : Rail) (p : Fin 16) (xs : Vector GateResult 4) (fp : Int)
    (g : Fin 4) : changesOnly [.windows, .link] s (s.handGate t r p xs fp g) := by
  unfold State.handGate
  split
  · exact changesOnly_refl _ s
  · exact handOn_changes s _
  · exact handOn_changes s _

theorem handCoverage_changes (s : State) (r : Rail) (p : Fin 16) (fp : Int) :
    changesOnly [.windows, .link] s (s.handCoverage r p fp) := by
  unfold State.handCoverage State.enterCoverage
  dsimp only
  split
  · split
    · exact changesOnly_mono (setWindow_changes s _ _) (by simp)
    · exact changesOnly_refl _ s
  · exact changesOnly_refl _ s

/-- An admitted report changes a window and offers HIT records, and nothing else (R86). -/
theorem handAll_changes (s : State) (r : Rail) (p : Fin 16) (xs : Vector GateResult 4) (fp : Int) :
    changesOnly [.windows, .link] s (s.handAll r p xs fp) :=
  changesOnly_trans (handCoverage_changes s r p fp)
    (changesOnly_foldl _ (fun u g => handGate_changes u s r p xs fp g) _ _)

/-! ## Firing and lanes -/

theorem changeLane_changes (s : State) (r : Rail) (l : Lane) (cause : LaneCause) :
    changesOnly [.lanes, .link] s (s.changeLane r l cause) :=
  changesOnly_trans (changesOnly_mono (setLane_changes s r l) (by simp))
    (changesOnly_mono (event_changes _ _) (by simp))

theorem enterSetup_changes (s : State) (r : Rail) (cause : LaneCause) :
    changesOnly [.lanes, .link] s (s.enterSetup r cause) := by
  unfold State.enterSetup
  dsimp only
  split
  · exact changesOnly_trans (changeLane_changes s r _ _) (changeLane_changes _ r _ _)
  · exact changeLane_changes s r _ _

theorem laneDown_changes (s : State) (r : Rail) : changesOnly [.lanes, .link] s (s.laneDown r) := by
  unfold State.laneDown
  dsimp only
  split
  · exact changesOnly_refl _ s
  · exact changeLane_changes s r _ _

theorem orderTimedOut_changes (s : State) (r : Rail) :
    changesOnly [.lanes, .link] s (s.orderTimedOut r) := by
  unfold State.orderTimedOut
  dsimp only
  split
  · exact changeLane_changes s r _ _
  · exact changesOnly_mono (setLane_changes s r _) (by simp)

theorem lanePart_changes (s : State) (k : Fin 16) (r : Rail) :
    changesOnly [.seq, .lanes] s (s.lanePart k r) := by
  unfold State.lanePart State.issueOrder
  split
  · exact changesOnly_trans (changesOnly_mono (setSeq_changes s _) (by simp))
      (changesOnly_mono (setLane_changes _ r _) (by simp))
  · exact changesOnly_refl _ s

theorem beginStep_changes (s : State) (k : Fin 16) : changesOnly [.seq, .lanes] s (s.beginStep k) :=
  changesOnly_trans (changesOnly_trans (lanePart_changes s k .a) (lanePart_changes _ k .b))
    (changesOnly_mono (setSeq_changes _ _) (by simp))

theorem beginCycle_changes (s : State) (kind : CycleKind) :
    changesOnly [.seq, .lanes] s (s.beginCycle kind) := by
  unfold State.beginCycle
  split
  · exact changesOnly_refl _ s
  · exact changesOnly_trans (changesOnly_mono (setSeq_changes s _) (by simp)) (beginStep_changes _ _)

theorem testDistance_changes (s : State) : changesOnly [.seq, .lanes, .link] s s.testDistance := by
  unfold State.testDistance State.distanceTrigger
  split
  · have h := changesOnly_mono (cs := [.seq, .lanes, .link])
      (setSeq_changes s { s.seq with lastTrigger := s.odo.cp }) (by simp)
    dsimp only
    split
    · exact changesOnly_trans h (changesOnly_mono (beginCycle_changes _ _) (by simp))
    · split
      · exact changesOnly_trans h (changesOnly_trans (changesOnly_mono (setSeq_changes _ _) (by simp))
          (changesOnly_mono (eventIf_changes _ _ _) (by simp)))
      · exact changesOnly_trans h (changesOnly_mono (setSeq_changes _ _) (by simp))
  · exact changesOnly_refl _ s

theorem observeCoupling_changes (s : State) (r : Rail) (p : Fin 16) (xs : Vector GateResult 4)
    (kind : CycleKind) : changesOnly [.lanes, .link] s (s.observeCoupling r p xs kind) :=
  changesOnly_trans (changesOnly_mono (setLane_changes s r _) (by simp))
    (changesOnly_mono (eventIf_changes _ _ _) (by simp))

/-! ## A change of CP -/

/-- A change of CP reaches the sequencer, the lanes, the windows, the Zone List, the evaluator, the marker and
the link, and nothing else (R5). -/
theorem cpChanged_changes (s : State) :
    changesOnly [.seq, .lanes, .windows, .zones, .eval, .marker, .link] s s.cpChanged :=
  changesOnly_trans (changesOnly_trans (changesOnly_trans (changesOnly_trans (changesOnly_trans
    (changesOnly_mono (setEngine_changes s .a _) (by simp))
    (changesOnly_mono (setEngine_changes _ .b _) (by simp)))
    (changesOnly_mono (testDistance_changes _) (by simp)))
    (changesOnly_mono (followCloseLine_changes _ .a) (by simp)))
    (changesOnly_mono (followCloseLine_changes _ .b) (by simp)))
    (changesOnly_mono (dueTests_changes _) (by simp))

/-! ## Suspension -/

theorem beginSuspension_changes (s : State) (c : SuspendBeginCause) :
    changesOnly [.run, .zones, .link] s (s.beginSuspension c) := by
  unfold State.beginSuspension
  dsimp only
  split
  · exact changesOnly_trans (changesOnly_trans (changesOnly_mono (setRun_changes s _) (by simp))
      (changesOnly_mono (setZones_changes _ _) (by simp))) (changesOnly_mono (event_changes _ _) (by simp))
  · exact changesOnly_trans (changesOnly_trans (changesOnly_mono (setRun_changes s _) (by simp))
      (changesOnly_mono (setZones_changes _ _) (by simp))) (changesOnly_mono (event_changes _ _) (by simp))

theorem endSuspension_changes (s : State) (c : SuspendEndCause) :
    changesOnly [.run, .zones, .link] s (s.endSuspension c) := by
  unfold State.endSuspension
  dsimp only
  split
  · exact changesOnly_mono (setRun_changes s _) (by simp)
  · exact changesOnly_trans (changesOnly_trans (changesOnly_mono (setRun_changes s _) (by simp))
      (changesOnly_mono (setZones_changes _ _) (by simp))) (changesOnly_mono (event_changes _ _) (by simp))

theorem judgeSuspension_changes (s : State) (b : SuspendBeginCause) (e : SuspendEndCause) :
    changesOnly [.run, .zones, .link] s (s.judgeSuspension b e) := by
  unfold State.judgeSuspension
  split
  · exact beginSuspension_changes s b
  · split
    · exact endSuspension_changes s e
    · exact changesOnly_refl _ s

end Sys2Proof.Machine
end

