-- ==== Sys2Proof/Laws/Configuration.lean ====
section
/-! SUPPORT. The configuration through the shared operations: none of them writes a parameter, a probe
    entry, a step,
a pattern, a spray pattern or the generation counter (R34, R35), and none of these writes the lead (R148). -/
namespace Sys2Proof.Machine

/-- The configuration, the generation counter and the lead are the same in two states. -/
def sameConfig (s t : State) : Prop :=
  t.params = s.params ∧ t.probes = s.probes ∧ t.seq.steps = s.seq.steps ∧ t.eval.patterns = s.eval.patterns
    ∧ t.marker.sprays = s.marker.sprays ∧ t.run.generation = s.run.generation
    ∧ t.marker.lead = s.marker.lead

namespace SameConfig

/-- The relation is reflexive, transitive, and holds where the blocks of the configuration are unchanged. -/
theorem refl (s : State) : sameConfig s s := ⟨rfl, rfl, rfl, rfl, rfl, rfl, rfl⟩

theorem trans {s t u : State} (h : sameConfig s t) (k : sameConfig t u) : sameConfig s u := by
  unfold sameConfig at *; obtain ⟨a, b, c, d, e, f, g⟩ := h; obtain ⟨a', b', c', d', e', f', g'⟩ := k
  exact ⟨a'.trans a, b'.trans b, c'.trans c, d'.trans d, e'.trans e, f'.trans f, g'.trans g⟩

theorem of {bs : List Block} {s t : State} (h : changesOnly bs s t) (h1 : Block.params ∉ bs)
    (h2 : Block.probes ∉ bs) (h3 : Block.seq ∉ bs) (h4 : Block.eval ∉ bs) (h5 : Block.marker ∉ bs)
    (h6 : Block.run ∉ bs) : sameConfig s t :=
  ⟨changesOnly_same h .params h1, changesOnly_same h .probes h2,
    congrArg Sequencer.steps (changesOnly_same h .seq h3),
    congrArg Evaluator.patterns (changesOnly_same h .eval h4),
    congrArg Marker.sprays (changesOnly_same h .marker h5),
    congrArg RunControl.generation (changesOnly_same h .run h6),
    congrArg Marker.lead (changesOnly_same h .marker h5)⟩

/-- A block replaced with its part of the configuration kept. -/
theorem setSeq (s : State) (x : Sequencer) (h : x.steps = s.seq.steps) : sameConfig s (s.setSeq x) :=
    ⟨rfl, rfl, h, rfl, rfl, rfl, rfl⟩

theorem setEval (s : State) (x : Evaluator) (h : x.patterns = s.eval.patterns) :
    sameConfig s (s.setEval x) := ⟨rfl, rfl, rfl, h, rfl, rfl, rfl⟩

theorem setMarker (s : State) (x : Marker) (h : x.sprays = s.marker.sprays)
    (h' : x.lead = s.marker.lead) : sameConfig s (s.setMarker x) := ⟨rfl, rfl, rfl, rfl, h, rfl, h'⟩

theorem setRun (s : State) (x : RunControl) (h : x.generation = s.run.generation) :
    sameConfig s (s.setRun x) := ⟨rfl, rfl, rfl, rfl, rfl, h, rfl⟩

/-- Blocks that hold no configuration. -/
theorem setEngine (s : State) (r : Rail) (x : Engine) : sameConfig s (s.setEngine r x) :=
    setMarker _ _ rfl rfl

theorem setQueue (s : State) (r : Rail) (x) : sameConfig s (s.setQueue r x) := setEngine _ _ _

theorem enter (s : State) (r : Rail) (x v) : sameConfig s (s.enter r x v) := setEngine _ _ _

theorem setOdo (s : State) (x) : sameConfig s (s.setOdo x) := ⟨rfl, rfl, rfl, rfl, rfl, rfl, rfl⟩

theorem setZones (s : State) (x) : sameConfig s (s.setZones x) := ⟨rfl, rfl, rfl, rfl, rfl, rfl, rfl⟩

theorem setLane (s : State) (r) (x) : sameConfig s (s.setLane r x) := ⟨rfl, rfl, rfl, rfl, rfl, rfl, rfl⟩

theorem setWindow (s : State) (r) (x) : sameConfig s (s.setWindow r x) := ⟨rfl, rfl, rfl, rfl, rfl, rfl, rfl⟩

theorem setWindows (s : State) (x) : sameConfig s (s.setWindows x) := ⟨rfl, rfl, rfl, rfl, rfl, rfl, rfl⟩

theorem setLink (s : State) (x) : sameConfig s (s.setLink x) := ⟨rfl, rfl, rfl, rfl, rfl, rfl, rfl⟩

theorem setPins (s : State) (x) : sameConfig s (s.setPins x) := ⟨rfl, rfl, rfl, rfl, rfl, rfl, rfl⟩

theorem emit (s : State) (x) : sameConfig s (s.emit x) := setLink _ _

theorem event (s : State) (x) : sameConfig s (s.event x) := setLink _ _

theorem reply (s : State) (h c r d) : sameConfig s (s.reply h c r d) := setLink _ _

theorem refuse (s : State) (h c r) : sameConfig s (s.refuse h c r) := setLink _ _

theorem take (s : State) (h c) : sameConfig s (s.take h c) := setLink _ _

theorem drew (s : State) (n) : sameConfig s (s.drew n) := ⟨rfl, rfl, rfl, rfl, rfl, rfl, rfl⟩

theorem eventIf (s : State) (c x) : sameConfig s (s.eventIf c x) := of (eventIf_changes s c x) (by simp)
    (by simp) (by simp) (by simp) (by simp) (by simp)

/-- Conditions. -/
theorem settle (s : State) : sameConfig s s.settleKeepAlive := by
  unfold State.settleKeepAlive; split
  · exact refl _
  · exact setSeq _ _ rfl

theorem mark (s : State) : sameConfig s s.markStopping := by
  unfold State.markStopping; split
  · exact refl _
  · exact setSeq _ _ rfl

theorem followLimit (s : State) : sameConfig s s.followLimit := of (followLimit_changes s) (by simp)
    (by simp) (by simp) (by simp) (by simp) (by simp)

theorem followRetrace (s : State) : sameConfig s s.followRetrace := of (followRetrace_changes s)
    (by simp) (by simp) (by simp) (by simp) (by simp) (by simp)

theorem clearStandstill (s : State) : sameConfig s s.clearStandstill := of (clearStandstill_changes s)
    (by simp) (by simp) (by simp) (by simp) (by simp) (by simp)

theorem judgeTick (s : State) : sameConfig s s.judgeTick := trans (trans (trans (followLimit s)
    (followRetrace _)) (clearStandstill _)) (settle _)

/-- Marking. -/
theorem dueTestLoop (r n s) : sameConfig s (dueTestLoop r n s) := by
  induction n generalizing s with
  | zero => exact refl _
  | succ n ih =>
    unfold Machine.dueTestLoop; split
    · exact refl _
    · split
      · exact trans (trans (setQueue _ _ _) (emit _ _)) (ih _)
      · exact setQueue _ _ _

theorem dueTest (s : State) (r) : sameConfig s (s.dueTest r) := dueTestLoop _ _ _

theorem dueTests (s : State) : sameConfig s s.dueTests := trans (dueTest _ _) (dueTest _ _)

theorem takeOffer (s : State) (r t sp c) : sameConfig s (s.takeOffer r t sp c) := by
  unfold State.takeOffer; split
  · exact setQueue _ _ _
  · exact refl _

theorem issueFinding (s : State) (r p run c) : sameConfig s (s.issueFinding r p run c) := by
  unfold State.issueFinding; dsimp only
  refine trans (trans (trans (t := s.markerOffer r (s.findingOf r p run c).spray (s.findingOf r p run
      c).cls (s.findingOf r p run c).startTick) ?_ ?_) (emit _ _)) (dueTest _ _)
  · unfold State.markerOffer; split
    · exact refl _
    · exact takeOffer _ _ _ _ _
  · unfold State.updateAlert; split
    · exact setEval _ _ rfl
    · exact refl _

/-- Evaluation. -/
theorem setPatternRun (s : State) (r p x) : sameConfig s (s.setPatternRun r p x) := setEval _ _ rfl

theorem setGapRun (s : State) (r x) : sameConfig s (s.setGapRun r x) := setEval _ _ rfl

theorem endRunOf (s : State) (r p) : sameConfig s (s.endRunOf r p) := by
  unfold State.endRunOf; dsimp only; split
  · exact trans (setPatternRun _ _ _ _) (issueFinding _ _ _ _ _)
  · exact setPatternRun _ _ _ _

theorem evalPattern (s : State) (r c p) : sameConfig s (s.evalPattern r c p) := by
  unfold State.evalPattern; dsimp only; repeat' split
  · exact trans (setPatternRun _ _ _ _) (issueFinding _ _ _ _ _)
  · exact setPatternRun _ _ _ _
  · exact endRunOf _ _ _
  · exact refl _

theorem endGap (s : State) (r) : sameConfig s (s.endGap r) := by
  unfold State.endGap; dsimp only; split
  · exact trans (setGapRun _ _ _) (emit _ _)
  · exact setGapRun _ _ _

theorem evalGap (s : State) (r c) : sameConfig s (s.evalGap r c) := by
  unfold State.evalGap; dsimp only; repeat' split
  · exact endGap _ _
  · exact trans (setGapRun _ _ _) (emit _ _)
  · exact setGapRun _ _ _

theorem foldl {α} (f : State → α → State) (h : ∀ s a, sameConfig s (f s a)) (l : List α) (s) :
    sameConfig s (l.foldl f s) := by
  induction l generalizing s with
  | nil => exact refl _
  | cons a l ih => exact trans (h s a) (ih _)

theorem evaluate (s : State) (r c) : sameConfig s (s.evaluate r c) :=
    trans (foldl _ (fun s p => evalPattern s r c p) _ _) (evalGap _ _ _)

theorem flush (s : State) (r) : sameConfig s (s.flush r) := trans (foldl _ (fun s p => endRunOf s r p) _ _)
    (endGap _ _)

/-- Windows. -/
theorem closeCell (s : State) (r d) : sameConfig s (s.closeCell r d) := by
  unfold State.closeCell; dsimp only; split
  · exact trans (trans (setWindow _ _ _) (setZones _ _)) (evaluate _ _ _)
  · exact trans (setWindow _ _ _) (setZones _ _)

theorem closeCells (r d n s) : sameConfig s (closeCells r d n s) := by
  induction n generalizing s with
  | zero => exact refl _
  | succ n ih => exact trans (closeCell _ _ _) (ih _)

theorem follow (s : State) (r) : sameConfig s (s.followCloseLine r) := by
  unfold State.followCloseLine; split
  · exact refl _
  · exact closeCells _ _ _ _

theorem drainRail (s : State) (r) : sameConfig s (s.drainRail r) := trans (trans (closeCells _ _ _ _)
    (closeCells _ _ _ _)) (flush _ _)

/-- Firing. -/
theorem lanePart (s : State) (k r) : sameConfig s (s.lanePart k r) := by
  unfold State.lanePart; split
  · exact trans (setSeq _ _ rfl) (setLane _ _ _)
  · exact refl _

theorem beginStep (s : State) (k) : sameConfig s (s.beginStep k) := trans (trans (lanePart _ _ _)
    (lanePart _ _ _)) (setSeq _ _ rfl)

theorem beginCycle (s : State) (k) : sameConfig s (s.beginCycle k) := by
  unfold State.beginCycle; split
  · exact refl _
  · refine trans ?_ (beginStep _ _)
    exact setSeq _ _ rfl

theorem testDistance (s : State) : sameConfig s s.testDistance := by
  unfold State.testDistance State.distanceTrigger; split
  · have a : sameConfig s (s.setSeq { s.seq with lastTrigger := s.odo.cp }) := setSeq _ _ rfl
    dsimp only; repeat' split
    · exact trans a (beginCycle _ _)
    · refine trans a ?_
      unfold State.overrunTrigger
      refine trans ?_ (eventIf _ _ _)
      exact setSeq _ _ rfl
    · refine trans a ?_
      exact setSeq _ _ rfl
  · exact refl _

/-- A change of CP (R5). -/
theorem cpChanged (s : State) : sameConfig s s.cpChanged :=
  trans (trans (trans (trans (trans (setEngine _ _ _) (setEngine _ _ _)) (testDistance _)) (follow _ _))
      (follow _ _)) (dueTests _)

theorem sourceTick (s : State) (d) : sameConfig s (s.sourceTick d) := by
  unfold State.sourceTick; dsimp only; split
  · exact trans (setOdo _ _) (judgeTick _)
  · exact trans (trans (setOdo _ _) (judgeTick _)) (cpChanged _)

/-- Engine phases. -/
theorem enterIdle (s : State) (r) : sameConfig s (s.enterIdle r) := trans (enter _ _ _ _) (dueTest _ _)

theorem beginRecover (s : State) (r m) : sameConfig s (s.beginRecover r m) := by
  unfold State.beginRecover; split
  · exact enterIdle _ _
  · exact enter _ _ _ _

theorem afterDashes (s : State) (r m) : sameConfig s (s.afterDashes r m) := by
  unfold State.afterDashes; split
  · exact enter _ _ _ _
  · exact beginRecover _ _ _

/-- Suspension and lanes. -/
theorem begins (s : State) (b) : sameConfig s (s.beginSuspension b) := by
  unfold State.beginSuspension; dsimp only; split <;> exact trans (trans (setRun _ _ rfl)
      (setZones _ _)) (event _ _)

theorem ends (s : State) (b) : sameConfig s (s.endSuspension b) := by
  unfold State.endSuspension; dsimp only; split
  · exact setRun _ _ rfl
  · exact trans (trans (setRun _ _ rfl) (setZones _ _)) (event _ _)

theorem judge (s : State) (b e) : sameConfig s (s.judgeSuspension b e) := by
  unfold State.judgeSuspension; repeat' split
  · exact begins _ _
  · exact ends _ _
  · exact refl _

theorem changeLane (s : State) (r l c) : sameConfig s (s.changeLane r l c) := trans (setLane _ _ _)
    (event _ _)

theorem enterSetup (s : State) (r c) : sameConfig s (s.enterSetup r c) := of (enterSetup_changes s r c)
    (by simp) (by simp) (by simp) (by simp) (by simp) (by simp)

end SameConfig

end Sys2Proof.Machine
end

