-- ==== Sys2Proof/Laws/Zones.lean ====
section
/-! SUPPORT. The Zone List and the marker queue as ordered lists: what an insertion does, the ids of R113, and
what the judging of suspension leaves. -/
namespace Sys2Proof.Machine

/-! ## Insertion in order (R112) -/

/-- An inserted zone stands at one place, the others around it in their order. -/
theorem insertZone_split (z : Zone) (l : List Zone) : ∃ u v, l = u ++ v ∧ insertZone z l = u ++ z :: v := by
  induction l with
  | nil => exact ⟨[], [], rfl, rfl⟩
  | cons y ys ih =>
    unfold insertZone
    split
    · exact ⟨[], y :: ys, rfl, rfl⟩
    · obtain ⟨u, v, h1, h2⟩ := ih; exact ⟨y :: u, v, by rw [h1]; rfl, by rw [h2]; rfl⟩

theorem insertZone_mem {z y : Zone} {l : List Zone} : y ∈ insertZone z l ↔ y = z ∨ y ∈ l := by
  obtain ⟨u, v, h1, h2⟩ := insertZone_split z l
  rw [h2, h1]
  simp only [List.mem_append, List.mem_cons]
  tauto

theorem Zone.ordered_trans {x y z : Zone} (h : x.ordered y) (k : y.ordered z) : x.ordered z := by
  unfold Zone.ordered at *; omega

/-- An insertion keeps the order. -/
theorem insertZone_ordered (z : Zone) {l : List Zone} (h : l.Pairwise Zone.ordered) :
    (insertZone z l).Pairwise Zone.ordered := by
  induction l with
  | nil => simp [insertZone]
  | cons y ys ih =>
    obtain ⟨h1, h2⟩ := List.pairwise_cons.1 h
    unfold insertZone
    split
    · rename_i hb
      have hzy : z.ordered y := by
        simp only [Zone.before, Bool.or_eq_true, Bool.and_eq_true, decide_eq_true_eq] at hb
        unfold Zone.ordered; omega
      refine List.pairwise_cons.2 ⟨?_, h⟩
      intro x hx
      rcases List.mem_cons.1 hx with rfl | hx
      · exact hzy
      · exact Zone.ordered_trans hzy (h1 x hx)
    · rename_i hb
      have hyz : y.ordered z := by
        simp only [Zone.before, Bool.or_eq_true, Bool.and_eq_true, decide_eq_true_eq] at hb
        unfold Zone.ordered; omega
      refine List.pairwise_cons.2 ⟨?_, ih h2⟩
      intro x hx
      rcases insertZone_mem.1 hx with rfl | hx
      · exact hyz
      · exact h1 x hx

/-! ## Ids (R113) -/

/-- The search passes only values that zones hold, and stops at the first that none holds. -/
theorem freeIdFrom_spec (zs : List Zone) (n : Nat) (c : Byte) :
    ∃ k ≤ n, freeIdFrom zs n c = c + BitVec.ofNat 8 k ∧ (∀ j < k, ∃ z ∈ zs, z.id = c + BitVec.ofNat 8 j)
      ∧ (k < n → ∀ z ∈ zs, z.id ≠ c + BitVec.ofNat 8 k) := by
  induction n generalizing c with
  | zero => exact ⟨0, le_refl _, by simp [freeIdFrom], by simp, by simp⟩
  | succ n ih =>
    unfold freeIdFrom
    by_cases hc : (zs.any fun z => z.id == c) = true
    · rw [if_pos hc]
      obtain ⟨k, hk, h1, h2, h3⟩ := ih (c + 1)
      have sh : ∀ j : Nat, c + 1 + BitVec.ofNat 8 j = c + BitVec.ofNat 8 (j + 1) := by
        intro j; rw [BitVec.ofNat_add, BitVec.add_assoc]; congr 1; rw [BitVec.add_comm]; rfl
      refine ⟨k + 1, by omega, by rw [h1, sh], ?_, ?_⟩
      · intro j hj
        cases j with
        | zero => simp at hc; obtain ⟨z, hz, he⟩ := hc; exact ⟨z, hz, by simp [he]⟩
        | succ j => obtain ⟨z, hz, he⟩ := h2 j (by omega); exact ⟨z, hz, by rw [he, sh]⟩
      · intro hk z hz; rw [← sh]; exact h3 (by omega) z hz
    · rw [if_neg hc]
      refine ⟨0, by omega, by simp, by simp, ?_⟩
      intro _ z hz hx
      apply hc
      simp only [List.any_eq_true, beq_iff_eq]
      exact ⟨z, hz, by simpa using hx⟩

/-- No zone of a Zone List of at most 17 holds the id the next one takes. -/
theorem nextId_fresh (l : ZoneList) (h : l.zones.length ≤ 17) : ∀ y ∈ l.zones, y.id ≠ l.nextId := by
  intro y hy hx
  obtain ⟨k, hk, h1, h2, h3⟩ := freeIdFrom_spec l.zones l.zones.length l.idCounter
  unfold ZoneList.nextId at hx
  rw [h1] at hx
  by_cases hkn : k < l.zones.length
  · exact h3 hkn y hy hx
  · have hk' : k = l.zones.length := by omega
    have all : ∀ j ≤ k, ∃ z ∈ l.zones, z.id = l.idCounter + BitVec.ofNat 8 j := by
      intro j hj
      by_cases hj' : j < k
      · exact h2 j hj'
      · have : j = k := by omega
        subst this; exact ⟨y, hy, hx⟩
    have sub : (List.range (k + 1)).map (fun j => l.idCounter + BitVec.ofNat 8 j) ⊆ l.zones.map Zone.id := by
      intro b hb
      simp at hb
      obtain ⟨j, hj, rfl⟩ := hb
      obtain ⟨z, hz, he⟩ := all j (by omega)
      simp; exact ⟨z, hz, he⟩
    have nd : ((List.range (k + 1)).map (fun j => l.idCounter + BitVec.ofNat 8 j)).Nodup := by
      apply List.Nodup.map_on _ List.nodup_range
      intro i hi j hj hij
      simp at hi hj
      have : BitVec.ofNat 8 i = BitVec.ofNat 8 j := by simpa using hij
      have := congrArg BitVec.toNat this
      simp at this; omega
    have := (nd.subperm sub).length_le
    simp at this; omega

/-! ## Suspension (R26, R118, R119) -/

/-- Suspension becomes its cause; nothing else of the Run Controller changes. -/
theorem judgeSuspension_run (s : State) (b : SuspendBeginCause) (e : SuspendEndCause) :
    (s.judgeSuspension b e).run = { s.run with suspension := s.suspensionCause } := by
  unfold State.judgeSuspension State.beginSuspension State.endSuspension
  dsimp only
  cases h1 : s.suspensionCause <;> cases h2 : s.run.suspension <;>
    simp only [Bool.and_false, Bool.and_true, Bool.not_true, Bool.not_false, Bool.false_eq_true, if_false,
      if_true]
  · rw [← h2]
  · split <;> simp
  · split <;> simp
  · rw [← h2]

/-- The zones an onset leaves depend on the zones, CP, the reach and the parameters alone (R118). -/
theorem beginSuspension_zones {s u : State} (hz : u.zones = s.zones) (hc : u.odo.cp = s.odo.cp)
    (hr : u.run.reachAll = s.run.reachAll) (hp : u.params = s.params) (a b : SuspendBeginCause) :
    (u.beginSuspension a).zones = (s.beginSuspension b).zones := by
  unfold State.beginSuspension State.suspendStart; dsimp only
  simp only [State.setRun_zones, State.setRun_odo, State.setRun_params, State.setRun_run, hz, hc, hr, hp]
  split <;> simp

/-- The zones the end of a suspension leaves depend on the zones, CP and the reach alone (R119). -/
theorem endSuspension_zones {s u : State} (hz : u.zones = s.zones) (hc : u.odo.cp = s.odo.cp)
    (hr : u.run.reachAll = s.run.reachAll) (a b : SuspendEndCause) :
    (u.endSuspension a).zones = (s.endSuspension b).zones := by
  unfold State.endSuspension State.suspendStop; dsimp only
  simp only [State.setRun_zones, State.setRun_odo, State.setRun_run, hz, hc, hr]
  split <;> simp [hz]

theorem zonesWhen_congr {s u : State} (hz : u.zones = s.zones) (hc : u.odo.cp = s.odo.cp)
    (hr : u.run.reachAll = s.run.reachAll) (hs : u.run.suspension = s.run.suspension)
    (hp : u.params = s.params) (b : Bool) : u.zonesWhen b = s.zonesWhen b := by
  unfold State.zonesWhen
  rw [hs, hz, beginSuspension_zones hz hc hr hp _ .lift, endSuspension_zones hz hc hr _ .lift]

/-- What the judging of suspension leaves of the Zone List (R26, R118, R119). -/
theorem judgeSuspension_zones (s : State) (x : SuspendBeginCause) (y : SuspendEndCause) :
    (s.judgeSuspension x y).zones = s.zonesWhen s.suspensionCause := by
  unfold State.judgeSuspension State.zonesWhen
  cases h1 : s.suspensionCause <;> cases h2 : s.run.suspension <;>
    simp [beginSuspension_zones (s := s) rfl rfl rfl rfl x .lift, endSuspension_zones (s := s) rfl rfl rfl y .lift]

/-! ## Marker queue order (R147) -/

/-- An offered entry comes after every entry at or below its target and before the first above it. -/
theorem insertEntry_split (e : MarkerEntry) (q : List MarkerEntry) :
    ∃ u v, q = u ++ v ∧ insertEntry e q = u ++ e :: v ∧ (∀ x ∈ u, x.target ≤ e.target)
      ∧ (∀ x ∈ v.head?, e.target < x.target) := by
  induction q with
  | nil => exact ⟨[], [], rfl, rfl, by simp, by simp⟩
  | cons x xs ih =>
    unfold insertEntry
    split
    · obtain ⟨u, v, h1, h2, h3, h4⟩ := ih
      refine ⟨x :: u, v, by rw [h1]; rfl, by rw [h2]; rfl, ?_, h4⟩
      intro y hy
      rcases List.mem_cons.1 hy with rfl | hy
      · assumption
      · exact h3 y hy
    · exact ⟨[], x :: xs, rfl, rfl, by simp, by simp; omega⟩

/-- An insertion keeps the order of the targets. -/
theorem insertEntry_ordered (e : MarkerEntry) {q : List MarkerEntry}
    (h : q.Pairwise fun x y => x.target ≤ y.target) :
    (insertEntry e q).Pairwise fun x y => x.target ≤ y.target := by
  induction q with
  | nil => simp [insertEntry]
  | cons x xs ih =>
    obtain ⟨h1, h2⟩ := List.pairwise_cons.1 h
    unfold insertEntry
    split
    · rename_i hx
      refine List.pairwise_cons.2 ⟨?_, ih h2⟩
      intro y hy
      obtain ⟨u, v, k1, k2, -, -⟩ := insertEntry_split e xs
      rw [k2] at hy
      rw [k1] at h1
      rcases List.mem_append.1 hy with hy | hy
      · exact h1 y (List.mem_append_left _ hy)
      · rcases List.mem_cons.1 hy with rfl | hy
        · exact hx
        · exact h1 y (List.mem_append_right _ hy)
    · rename_i hx
      refine List.pairwise_cons.2 ⟨?_, h⟩
      intro y hy
      rcases List.mem_cons.1 hy with rfl | hy
      · omega
      · have := h1 y hy; omega

end Sys2Proof.Machine
end

