-- ==== Sys2Proof/Laws/Marking.lean ====
section
/-! SUPPORT. What the due test, the engine phases and the cutting of a mark leave of an engine. -/
namespace Sys2Proof.Machine

/-- The due test leaves the other engine, and of its own everything but dropped heads and a latch (R149,
    R152). -/
theorem dueTestLoop_engine (r : Rail) (n : Nat) (s : State) :
    (∀ q, q ≠ r → (dueTestLoop r n s).marker.engines.get q = s.marker.engines.get q) ∧
    ((dueTestLoop r n s).marker.engines.get r).state = (s.marker.engines.get r).state ∧
    ((dueTestLoop r n s).marker.engines.get r).valves = (s.marker.engines.get r).valves ∧
    ((dueTestLoop r n s).marker.engines.get r).queue.length ≤ (s.marker.engines.get r).queue.length ∧
    (dueTestLoop r n s).marker.sprays = s.marker.sprays ∧ (dueTestLoop r n s).marker.lead = s.marker.lead
        := by
  induction n generalizing s with
  | zero => exact ⟨fun _ _ => rfl, rfl, rfl, le_refl _, rfl, rfl⟩
  | succ n ih =>
    unfold dueTestLoop
    split
    · exact ⟨fun _ _ => rfl, rfl, rfl, le_refl _, rfl, rfl⟩
    · rename_i e rest hq
      split
      · obtain ⟨h1, h2, h3, h4, h5, h6⟩ := ih ((s.setQueue r rest).emit (s.markRecord r .droppedLate e
            (s.lateness r e)))
        refine ⟨?_, ?_, ?_, ?_, ?_, ?_⟩
        · intro q hqr; rw [h1 q hqr]; simp [State.setQueue, State.setEngine, PerRail.get_set_ne _ hqr]
        · rw [h2]; simp [State.setQueue, State.setEngine]
        · rw [h3]; simp [State.setQueue, State.setEngine]
        · refine le_trans h4 ?_; simp [State.setQueue, State.setEngine, hq]
        · rw [h5]; rfl
        · rw [h6]; rfl
      · refine ⟨?_, ?_, ?_, ?_, ?_, ?_⟩
        · intro q hqr; simp [State.setQueue, State.setEngine, PerRail.get_set_ne _ hqr]
        · simp [State.setQueue, State.setEngine]
        · simp [State.setQueue, State.setEngine]
        · simp [State.setQueue, State.setEngine, hq]
        · rfl
        · rfl

theorem dueTest_engine (s : State) (r : Rail) :
    (∀ q, q ≠ r → (s.dueTest r).marker.engines.get q = s.marker.engines.get q) ∧
    ((s.dueTest r).marker.engines.get r).state = (s.marker.engines.get r).state ∧
    ((s.dueTest r).marker.engines.get r).valves = (s.marker.engines.get r).valves ∧
    ((s.dueTest r).marker.engines.get r).queue.length ≤ (s.marker.engines.get r).queue.length ∧
    (s.dueTest r).marker.sprays = s.marker.sprays ∧ (s.dueTest r).marker.lead = s.marker.lead :=
        dueTestLoop_engine r _ s

/-- An EITHER head is never dropped: the due test only latches it (R150, R152). -/
theorem dueTest_either (s : State) (r : Rail) (e : MarkerEntry) (rest : List MarkerEntry)
    (hq : (s.marker.engines.get r).queue = e :: rest) (ha : e.arming = .either) :
    ((s.dueTest r).marker.engines.get r).queue = s.latch r e :: rest := by
  unfold State.dueTest
  rw [hq]
  unfold dueTestLoop
  rw [hq]
  simp only
  rw [if_neg]
  · simp [State.setQueue]
  · have : s.lateness r e = 0 := by simp [State.lateness, ha]
    rw [this]; simp

theorem enter_changes (s : State) (r : Rail) (e : EngineState) (v : Valves) :
    changesOnly [.marker, .link] s (s.enter r e v) :=
  changesOnly_mono (setEngine_changes s r _) (by simp)

/-- Entering IDLE (R149, R155). -/
theorem enterIdle_spec (s : State) (r : Rail) : ((s.enterIdle r).marker.engines.get r).state = .idle ∧
    ((s.enterIdle r).marker.engines.get r).valves = .off ∧ changesOnly [.marker, .link] s (s.enterIdle r)
    ∧ (∀ q, q ≠ r → (s.enterIdle r).marker.engines.get q = s.marker.engines.get q)
    ∧ ((s.enterIdle r).marker.engines.get r).queue.length ≤ (s.marker.engines.get r).queue.length := by
  unfold State.enterIdle
  obtain ⟨d1, d2, d3, d4, d5, d6⟩ := dueTest_engine (s.enter r .idle .off) r
  refine ⟨?_, ?_, ?_, ?_, ?_⟩
  · rw [d2]; simp [State.enter]
  · rw [d3]; simp [State.enter]
  · exact changesOnly_trans (changesOnly_mono (setEngine_changes s r _) (by simp)) (dueTest_changes _ _)
  · intro q hqr; rw [d1 q hqr]; simp [State.enter, State.setEngine, PerRail.get_set_ne _ hqr]
  · refine le_trans d4 ?_; simp [State.enter]

/-- RECOVER, or IDLE at once with a RECOVER_MS of 0 (R155). -/
theorem beginRecover_spec (s : State) (r : Rail) (m : Mark) :
    changesOnly [.marker, .link] s (s.beginRecover r m) ∧ ((s.beginRecover r m).marker.engines.get
        r).valves = .off ∧
    (if 0 < s.params.recoverMs then ∃ m', ((s.beginRecover r m).marker.engines.get r).state = .painting
        .recover m'
     else ((s.beginRecover r m).marker.engines.get r).state = .idle)
    ∧ (∀ q, q ≠ r → (s.beginRecover r m).marker.engines.get q = s.marker.engines.get q) := by
  unfold State.beginRecover
  by_cases h : s.params.recoverMs = 0
  · rw [if_pos h, if_neg (by omega)]
    have := enterIdle_spec s r
    exact ⟨this.2.2.1, this.2.1, this.1, this.2.2.2.1⟩
  · rw [if_neg h, if_pos (by omega)]
    refine ⟨enter_changes s r _ _, by simp [State.enter], ⟨_, by simp [State.enter]; rfl⟩, ?_⟩
    intro q hqr; simp [State.enter, State.setEngine, PerRail.get_set_ne _ hqr]

/-- What follows the last dash or a cut: PURGE, RECOVER or IDLE (R155, R160). -/
theorem afterDashes_spec (s : State) (r : Rail) (m : Mark) :
    changesOnly [.marker, .link] s (s.afterDashes r m) ∧
    (if m.shape.purge = true ∧ 0 < s.params.purgeMs then
        (∃ m', ((s.afterDashes r m).marker.engines.get r).state = .painting .purge m')
          ∧ ((s.afterDashes r m).marker.engines.get r).valves = purgeValve
      else if 0 < s.params.recoverMs then
        (∃ m', ((s.afterDashes r m).marker.engines.get r).state = .painting .recover m')
            ∧ ((s.afterDashes r m).marker.engines.get r).valves = .off
      else ((s.afterDashes r m).marker.engines.get r).state = .idle
          ∧ ((s.afterDashes r m).marker.engines.get r).valves = .off)
    ∧ (∀ q, q ≠ r → (s.afterDashes r m).marker.engines.get q = s.marker.engines.get q) := by
  unfold State.afterDashes
  by_cases h : m.shape.purge = true ∧ 0 < s.params.purgeMs
  · rw [if_pos h, if_pos (by simpa using h)]
    refine ⟨enter_changes s r _ _, ⟨⟨_, by simp [State.enter]; rfl⟩, by simp [State.enter]⟩, ?_⟩
    intro q hqr; simp [State.enter, State.setEngine, PerRail.get_set_ne _ hqr]
  · rw [if_neg h, if_neg (by simpa using h)]
    obtain ⟨b1, b2, b3, b4⟩ := beginRecover_spec s r m
    refine ⟨b1, ?_, b4⟩
    by_cases h0 : 0 < s.params.recoverMs
    · rw [if_pos h0] at b3 ⊢; exact ⟨b3, b2⟩
    · rw [if_neg h0] at b3 ⊢; exact ⟨b3, b2⟩

/-- The MARK records of a cancelled queue change the link alone (R160). -/
theorem cancelAll_marker (r : Rail) (q : List MarkerEntry) (s : State) :
    (cancelAll r q s).marker = s.marker ∧ changesOnly [.link] s (cancelAll r q s) := by
  induction q generalizing s with
  | nil => exact ⟨rfl, changesOnly_refl _ _⟩
  | cons e rest ih =>
    unfold cancelAll
    refine ⟨(ih _).1, changesOnly_trans (emit_changes _ _) (ih _).2⟩

/-- The records of a cancelled queue, one after another (R160). -/
theorem cancelAll_eq (r : Rail) (q : List MarkerEntry) (s : State) : cancelAll r q s =
    s.setLink (q.foldl (fun l e => l.offer s.odo.cp (s.markRecord r .cancelled e 0)) s.link) := by
  induction q generalizing s with
  | nil => rfl
  | cons e rest ih => unfold cancelAll; rw [ih]; rfl

/-- An engine with an empty queue that enters IDLE makes no due test (R149). -/
theorem enterIdle_empty (s : State) (r : Rail) (h : (s.marker.engines.get r).queue = []) :
    s.enterIdle r = s.enter r .idle .off := by
  have : ((s.enter r .idle .off).marker.engines.get r).queue = [] := by simp [State.enter, h]
  unfold State.enterIdle State.dueTest dueTestLoop
  rw [this]

/-- What a cut makes of an engine whose queue has been emptied: PURGE, RECOVER or IDLE of the same mark (R155, R160). -/
theorem afterDashes_empty (s : State) (r : Rail) (m : Mark) (h : (s.marker.engines.get r).queue = []) :
    s.afterDashes r m =
      if m.shape.purge = true ∧ 0 < s.params.purgeMs then
        s.enter r (.painting .purge { m with
          distance := 0, elapsed := 0, phaseTime := s.params.purgeMs * 100 }) purgeValve
      else s.enter r (if 0 < s.params.recoverMs then .painting .recover { m with
          distance := 0, elapsed := 0, phaseTime := s.params.recoverMs * 100 } else .idle) .off := by
  unfold State.afterDashes State.beginRecover
  by_cases h1 : m.shape.purge = true ∧ 0 < s.params.purgeMs
  · rw [if_pos h1, if_pos (by simpa using h1)]; rfl
  · rw [if_neg h1, if_neg (by simpa using h1)]
    by_cases h2 : s.params.recoverMs = 0
    · rw [if_pos h2, if_neg (by omega), enterIdle_empty s r h]
    · rw [if_neg h2, if_pos (by omega)]; rfl

/-- The due test reads of the run only its number (R149, R161). -/
theorem dueTestLoop_setRun (r : Rail) (n : Nat) (s : State) (x : RunControl) (h : x.runNumber = s.run.runNumber) :
    dueTestLoop r n (s.setRun x) = (dueTestLoop r n s).setRun x := by
  induction n generalizing s with
  | zero => rfl
  | succ n ih =>
    cases hq : (s.marker.engines.get r).queue with
    | nil => unfold dueTestLoop; simp only [State.setRun_marker]; rw [hq]
    | cons e rest =>
      have e1 : (s.setRun x).markRecord r .droppedLate e ((s.setRun x).lateness r e)
          = s.markRecord r .droppedLate e (s.lateness r e) := by
        unfold State.markRecord; rw [State.setRun_run, h]; rfl
      unfold dueTestLoop; simp only [State.setRun_marker]; rw [hq]; simp only
      rw [e1]
      split
      · rename_i hc; rw [if_pos (by exact hc)]; exact ih ((s.setQueue r rest).emit _) h
      · rename_i hc; rw [if_neg (by exact hc)]; rfl

theorem dueTest_setRun (r : Rail) (s : State) (x : RunControl) (h : x.runNumber = s.run.runNumber) :
    (s.setRun x).dueTest r = (s.dueTest r).setRun x := dueTestLoop_setRun r _ s x h

theorem markerOffer_eval (s : State) (r : Rail) (spray : Option (Fin 7)) (cls : Fin 16) (tick : Int) :
    (s.markerOffer r spray cls tick).eval = s.eval := by
  unfold State.markerOffer State.takeOffer
  repeat' split
  all_goals rfl

end Sys2Proof.Machine
end

