-- ==== Sys2Proof/Laws/Windows.lean ====
section
/-! SUPPORT. The open records of a Cell Window: reading after a replacement, the canonical form that every
operation keeps (notes/assumptions/3.md), the bounds of R90, and what closing cells does. -/
namespace Sys2Proof.Machine

/-! ## The canonical list of open records -/

/-- Strictly rising indices and no empty record. -/
def canonical (cells : List CellRecord) : Prop :=
  (cells.Pairwise fun x y => x.index < y.index) ∧ ∀ x ∈ cells, x.groups ≠ .empty

/-- A window is in canonical form when its list is and every listed cell is open. -/
theorem wf_iff (w : Window) :
    w.wf = true ↔ canonical w.cells ∧ ∀ x ∈ w.cells, w.k ≤ x.index ∧ x.index ≤ w.k + 1023 := by
  simp [Window.wf, canonical, Window.isOpen, and_assoc]
  intro _
  constructor
  · intro h; exact ⟨fun x hx => (h x hx).2.2, fun x hx => ⟨(h x hx).1, (h x hx).2.1⟩⟩
  · intro h x hx; exact ⟨(h.2 x hx).1, (h.2 x hx).2, h.1 x hx⟩

/-- A cell below every listed one reads as empty. -/
theorem groupsAt_of_lt {cells : List CellRecord} {c : Int} (h : ∀ x ∈ cells, c < x.index) :
    groupsAt cells c = .empty := by
  unfold groupsAt
  rw [List.find?_eq_none.2 (by intro x hx; have := h x hx; simp; omega)]

theorem groupsAt_cons (x : CellRecord) (xs : List CellRecord) (c : Int) :
    groupsAt (x :: xs) c = if x.index = c then x.groups else groupsAt xs c := by
  unfold groupsAt; rw [List.find?_cons]; by_cases h : x.index = c <;> simp [h]

/-- After a replacement a listed record was there before, or is the new one and not empty. -/
theorem putGroups_mem {c : Int} {g : CellGroups} {cells : List CellRecord} {x : CellRecord}
    (h : x ∈ putGroups c g cells) : x ∈ cells ∨ (x.index = c ∧ x.groups = g ∧ g ≠ .empty) := by
  induction cells with
  | nil => unfold putGroups at h; split at h <;> simp_all
  | cons y ys ih =>
    unfold putGroups at h
    split at h
    · split at h
      · exact .inl h
      · rcases List.mem_cons.1 h with rfl | h
        · exact .inr ⟨rfl, rfl, ‹_›⟩
        · exact .inl h
    · split at h
      · split at h
        · exact .inl (List.mem_cons_of_mem _ h)
        · rcases List.mem_cons.1 h with rfl | h
          · exact .inr ⟨rfl, rfl, ‹_›⟩
          · exact .inl (List.mem_cons_of_mem _ h)
      · rcases List.mem_cons.1 h with rfl | h
        · exact .inl (List.mem_cons_self ..)
        · exact (ih h).imp (List.mem_cons_of_mem _) id

/-- A replacement keeps the canonical form. -/
theorem putGroups_canonical {c : Int} {g : CellGroups} {cells : List CellRecord} (h : canonical cells) :
    canonical (putGroups c g cells) := by
  refine ⟨?_, fun x hx => ?_⟩
  · have h := h.1
    clear * - h
    induction cells with
    | nil => unfold putGroups; split <;> simp
    | cons y ys ih =>
      obtain ⟨h1, h2⟩ := List.pairwise_cons.1 h
      unfold putGroups
      split
      · split
        · exact h
        · refine List.pairwise_cons.2 ⟨?_, h⟩
          intro z hz
          rcases List.mem_cons.1 hz with rfl | hz
          · assumption
          · have := h1 z hz; simp only; omega
      · split
        · split
          · exact h2
          · exact List.pairwise_cons.2 ⟨by intro z hz; have := h1 z hz; simp only; omega, h2⟩
        · refine List.pairwise_cons.2 ⟨?_, ih h2⟩
          intro z hz
          rcases putGroups_mem hz with hz | ⟨hz, _⟩
          · exact h1 z hz
          · omega
  · rcases putGroups_mem hx with hx | ⟨_, h1, h2⟩
    · exact h.2 x hx
    · rw [h1]; exact h2

/-- A cell reads as what has been put there. -/
theorem groupsAt_put_same {c : Int} {g : CellGroups} {cells : List CellRecord}
    (h : cells.Pairwise fun x y => x.index < y.index) : groupsAt (putGroups c g cells) c = g := by
  induction cells with
  | nil => unfold putGroups; split <;> simp_all [groupsAt]
  | cons y ys ih =>
    obtain ⟨h1, h2⟩ := List.pairwise_cons.1 h
    unfold putGroups
    split
    · split
      · rename_i hc hg
        rw [hg]
        apply groupsAt_of_lt
        intro z hz
        rcases List.mem_cons.1 hz with rfl | hz
        · exact hc
        · have := h1 z hz; omega
      · simp [groupsAt_cons]
    · split
      · split
        · rename_i hc hg; rw [hg]; apply groupsAt_of_lt; intro z hz; have := h1 z hz; omega
        · simp [groupsAt_cons]
      · rw [groupsAt_cons, if_neg (by omega), ih h2]

/-- Every other cell reads as before. -/
theorem groupsAt_put_ne {c d : Int} {g : CellGroups} {cells : List CellRecord} (hd : d ≠ c) :
    groupsAt (putGroups c g cells) d = groupsAt cells d := by
  induction cells with
  | nil =>
    unfold putGroups
    split
    · rfl
    · rw [groupsAt_cons, if_neg (by simpa using Ne.symm hd)]
  | cons y ys ih =>
    unfold putGroups
    repeat' split
    · rfl
    · rw [groupsAt_cons, if_neg (by simp; omega)]
    · rw [groupsAt_cons, if_neg (by omega)]
    · rw [groupsAt_cons, groupsAt_cons, if_neg (by simp; omega), if_neg (by omega)]
    · rw [groupsAt_cons, groupsAt_cons, ih]

theorem Window.groups_put_same {w : Window} (h : w.wf = true) (c : Int) (g : CellGroups) :
    (w.put c g).groups c = g := groupsAt_put_same ((wf_iff w).1 h).1.1

theorem Window.groups_put_ne (w : Window) {c d : Int} (hd : d ≠ c) (g : CellGroups) :
    (w.put c g).groups d = w.groups d := groupsAt_put_ne hd

/-! ## The canonical form and the bounds are kept -/

/-- Replacing the groups of an open cell keeps the canonical form. -/
theorem Window.put_wf {w : Window} (h : w.wf = true) {c : Int} (hc : w.isOpen c = true) (g : CellGroups) :
    (w.put c g).wf = true := by
  obtain ⟨h1, h2⟩ := (wf_iff w).1 h
  refine (wf_iff _).2 ⟨putGroups_canonical h1, ?_⟩
  intro x hx
  rcases putGroups_mem hx with hx | ⟨hx, _⟩
  · exact h2 x hx
  · simp only [Window.isOpen, Bool.and_eq_true, decide_eq_true_eq] at hc
    rw [hx]; exact hc

/-- What an unlisted cell reads as keeps the bounds. -/
theorem empty_bounded (g : Fin 8) : (CellGroups.empty[g]).bounded := by
  simp [CellGroups.empty, GroupRecord.bounded, GroupRecord.empty]

/-- Every cell of a bounded window reads within the bounds. -/
theorem Window.groups_bounded {w : Window} (h : w.bounded) (c : Int) (g : Fin 8) :
    ((w.groups c)[g]).bounded := by
  unfold Window.groups groupsAt
  split
  · exact h _ (List.mem_of_find?_eq_some ‹_›) g
  · exact empty_bounded g

/-- Putting groups within the bounds keeps them. -/
theorem Window.put_bounded {w : Window} (h : w.bounded) {c : Int} {gs : CellGroups}
    (hg : ∀ g : Fin 8, (gs[g]).bounded) : (w.put c gs).bounded := by
  intro x hx g
  rcases putGroups_mem hx with hx | ⟨_, hx, _⟩
  · exact h x hx g
  · rw [hx]; exact hg g

/-- One group replaced by a bounded one. -/
theorem groups_set_bounded {gs : CellGroups} (h : ∀ g : Fin 8, (gs[g]).bounded) (i : Fin 8) {x : GroupRecord}
    (hx : x.bounded) (g : Fin 8) : ((gs.set i x)[g]).bounded := by
  by_cases hg : g = i
  · subst hg; simpa using hx
  · have : i.val ≠ g.val := fun e => hg (Fin.ext e.symm)
    simpa [Vector.getElem_set_ne _ _ this] using h g

/-- An entered hit keeps the bounds of its group record (R90, R96, R97). -/
theorem PlacedHit.apply_bounded (h : PlacedHit) {g : GroupRecord} (hg : g.bounded) : (h.apply g).bounded := by
  unfold PlacedHit.apply
  unfold GroupRecord.bounded at *
  split
  · simp only [GroupRecord.addFlaw]; omega
  · simp only [GroupRecord.addDrop]; exact ⟨hg.1, by omega, hg.2.2⟩

/-- Entering a hit in an open cell keeps the canonical form. -/
theorem Window.enter_wf {w : Window} (h : w.wf = true) (x : PlacedHit) (hc : w.isOpen x.cell = true) :
    (w.enter x).wf = true := Window.put_wf h hc _

theorem Window.enter_bounded {w : Window} (h : w.bounded) (x : PlacedHit) : (w.enter x).bounded :=
  Window.put_bounded h (groups_set_bounded (w.groups_bounded h x.cell) _
    (x.apply_bounded (w.groups_bounded h x.cell x.group)))

/-- A coverage reference in an open cell keeps the canonical form. -/
theorem Window.cover_wf {w : Window} (h : w.wf = true) {c : Int} (hc : w.isOpen c = true) (g : Fin 8) :
    (w.cover c g).wf = true := Window.put_wf h hc _

theorem Window.cover_bounded {w : Window} (h : w.bounded) (c : Int) (g : Fin 8) : (w.cover c g).bounded :=
  Window.put_bounded h (groups_set_bounded (w.groups_bounded h c) _ (w.groups_bounded h c g))

/-! ## Closing cells -/

/-- Putting the empty record at or below the least index removes that cell. -/
theorem put_empty (cells : List CellRecord) (k : Int) (h : cells.Pairwise fun x y => x.index < y.index)
    (hk : ∀ x ∈ cells, k ≤ x.index) :
    putGroups k .empty cells = cells.filter fun x => decide (k + 1 ≤ x.index) := by
  cases cells with
  | nil => rfl
  | cons x xs =>
    obtain ⟨h1, h2⟩ := List.pairwise_cons.1 h
    have hx := hk x (List.mem_cons_self ..)
    have hrest : xs.filter (fun x => decide (k + 1 ≤ x.index)) = xs := by
      apply List.filter_eq_self.2; intro y hy; have := h1 y hy; simp; omega
    unfold putGroups
    by_cases hc : k < x.index
    · rw [if_pos hc, if_pos rfl, List.filter_cons, if_pos (by simp; omega), hrest]
    · rw [if_neg hc, if_pos (by omega), if_pos rfl, List.filter_cons, if_neg (by simp; omega), hrest]

/-- Closing a cell replaces its window by the closed one, and no other (R92). -/
theorem closeCell_windows (s : State) (r : Rail) (d : Bool) :
    (s.closeCell r d).windows = s.windows.set r (s.closedWindow r d) := by
  have h : ∀ u : State, ∀ c, (u.evaluate r c).windows = u.windows := fun u c =>
    changesOnly_same (evaluate_changes u r c) .windows (by simp)
  unfold State.closeCell
  dsimp only
  split
  · rw [h]; rfl
  · rfl

theorem closeCell_window (s : State) (r : Rail) (d : Bool) :
    (s.closeCell r d).windows.get r = s.closedWindow r d := by
  rw [closeCell_windows, PerRail.get_set_same]

/-- The closed window is in canonical form. -/
theorem closedWindow_wf {s : State} {r : Rail} (h : (s.windows.get r).wf = true) (d : Bool) :
    (s.closedWindow r d).wf = true := by
  obtain ⟨h1, h2⟩ := (wf_iff _).1 h
  refine (wf_iff _).2 ⟨putGroups_canonical h1, ?_⟩
  have e : (s.closedWindow r d).cells = _ := put_empty _ _ h1.1 fun x hx => (h2 x hx).1
  have k : (s.closedWindow r d).k = (s.windows.get r).k + 1 := rfl
  intro x hx
  rw [e] at hx
  rw [k]
  obtain ⟨hm, hx⟩ := List.mem_filter.1 hx
  have := (h2 x hm).2
  simp only [decide_eq_true_eq] at hx
  omega

theorem closedWindow_bounded {s : State} {r : Rail} (h : (s.windows.get r).bounded) (d : Bool) :
    (s.closedWindow r d).bounded := Window.put_bounded (w := s.windows.get r) h empty_bounded

/-- Closing `n` cells leaves the other window and raises K by `n`. -/
theorem closeCells_window (r : Rail) (d : Bool) (n : Nat) (s : State) :
    (∀ q, q ≠ r → (closeCells r d n s).windows.get q = s.windows.get q) ∧
    ((closeCells r d n s).windows.get r).k = (s.windows.get r).k + n := by
  induction n generalizing s with
  | zero => simp [closeCells]
  | succ n ih =>
    obtain ⟨h1, h2⟩ := ih (s.closeCell r d)
    refine ⟨?_, ?_⟩
    · intro q hq; rw [closeCells, h1 q hq, closeCell_windows, PerRail.get_set_ne _ hq]
    · rw [closeCells, h2, closeCell_window]; simp only [State.closedWindow]; push_cast; omega

/-- Closing `n` cells keeps the records of the cells above them. -/
theorem closeCells_cells (r : Rail) (d : Bool) (n : Nat) (s : State)
    (hp : (s.windows.get r).cells.Pairwise fun x y => x.index < y.index)
    (hk : ∀ x ∈ (s.windows.get r).cells, (s.windows.get r).k ≤ x.index) :
    ((closeCells r d n s).windows.get r).cells =
      (s.windows.get r).cells.filter fun x => decide ((s.windows.get r).k + n ≤ x.index) := by
  induction n generalizing s with
  | zero =>
    simp only [closeCells, Nat.cast_zero, add_zero]
    symm
    apply List.filter_eq_self.2
    intro x hx
    simpa using hk x hx
  | succ n ih =>
    have e : ((s.closeCell r d).windows.get r).cells =
        (s.windows.get r).cells.filter fun x => decide ((s.windows.get r).k + 1 ≤ x.index) := by
      rw [closeCell_window]; exact put_empty _ _ hp hk
    have ek : ((s.closeCell r d).windows.get r).k = (s.windows.get r).k + 1 := by
      rw [closeCell_window]; rfl
    rw [closeCells, ih]
    · rw [e, ek, List.filter_filter]
      apply List.filter_congr
      intro x _
      push_cast
      rw [Bool.eq_iff_iff]
      simp only [Bool.and_eq_true, decide_eq_true_eq]
      omega
    · rw [e]; exact hp.filter _
    · rw [e, ek]; intro x hx; simpa using (List.mem_filter.1 hx).2

/-! ## The drain of a window (R105) -/

theorem Window.le_highest {w : Window} (h : w.cells.Pairwise fun x y => x.index < y.index) :
    ∀ x ∈ w.cells, x.index ≤ w.highest := by
  intro x hx
  unfold Window.highest
  cases hl : w.cells.getLast? with
  | none => simp at hl; rw [hl] at hx; simp at hx
  | some y =>
    simp only
    obtain ⟨u, hu⟩ := List.getLast?_eq_some_iff.1 hl
    rw [hu] at hx h
    rcases List.mem_append.1 hx with hx | hx
    · have := (List.pairwise_append.1 h).2.2 x hx y (by simp); omega
    · simp at hx; rw [hx]

theorem Window.highest_ge {w : Window} (hk : ∀ x ∈ w.cells, w.k ≤ x.index) : w.k - 1 ≤ w.highest := by
  unfold Window.highest
  cases hl : w.cells.getLast? with
  | none => simp
  | some y =>
    have := hk y (List.mem_of_getLast? hl); simp only; omega

theorem flush_windows (s : State) (r : Rail) : (s.flush r).windows = s.windows :=
  changesOnly_same (flush_changes s r) .windows (by simp)

/-- The drain of a rail leaves its window three cells above its highest cell with content, and empty. -/
theorem drainRail_window (s : State) (r : Rail) (hw : (s.windows.get r).wf = true) :
    ((s.drainRail r).windows.get r).k = (s.windows.get r).highest + 4
      ∧ ((s.drainRail r).windows.get r).cells = []
      ∧ ∀ q, q ≠ r → (s.drainRail r).windows.get q = s.windows.get q := by
  obtain ⟨⟨hp, _⟩, hk⟩ := (wf_iff _).1 hw
  have hk' : ∀ x ∈ (s.windows.get r).cells, (s.windows.get r).k ≤ x.index := fun x hx => (hk x hx).1
  have hge := Window.highest_ge hk'
  unfold State.drainRail
  dsimp only
  rw [flush_windows]
  generalize hn : ((s.windows.get r).highest + 1 - (s.windows.get r).k).toNat = n
  have hn' : (s.windows.get r).k + n = (s.windows.get r).highest + 1 := by omega
  have c1 := closeCells_window r true n s
  have c2 := closeCells_cells r true n s hp hk'
  generalize ht : closeCells r true n s = t at c1 c2
  have e0 : (t.windows.get r).cells = [] := by
    rw [c2]
    apply List.filter_eq_nil_iff.2
    intro x hx
    have := Window.le_highest hp x hx
    simp
    omega
  have d1 := closeCells_window r false 3 t
  have d2 := closeCells_cells r false 3 t (by rw [e0]; exact List.Pairwise.nil) (by rw [e0]; simp)
  refine ⟨?_, ?_, ?_⟩
  · rw [d1.2, c1.2]; omega
  · rw [d2, e0]; rfl
  · intro q hq; rw [d1.1 q hq, c1.1 q hq]

/-! ## Muting of hits (R27, R95, R120) -/

/-- Which zones mute a hit of a group at X: every zone that covers it but, while PAUSED, the open SUSPEND zone. -/
theorem mutesHit_iff (s : State) (r : Rail) (g : Fin 8) (x : Int) : s.mutesHit r g x = true ↔
    ∃ z ∈ s.zones.zones, (z.kind = .suspend → z.stop = none → s.run.state ≠ .paused)
      ∧ holdsRail z.rails r = true ∧ z.groups.getLsbD g.val = true
      ∧ z.start ≤ x ∧ ∀ e, z.stop = some e → x ≤ e := by
  have hz : ∀ z : Zone, s.mutesHits z = true ↔ (z.kind = .suspend → z.stop = none → s.run.state ≠ .paused) := by
    intro z; unfold State.mutesHits Zone.isMute; cases z.kind <;> cases z.stop <;> simp
  have hr : ∀ z : Zone, z.reaches x = true ↔ ∀ e, z.stop = some e → x ≤ e := by
    intro z; unfold Zone.reaches; cases z.stop <;> simp
  simp only [State.mutesHit, List.any_eq_true, Zone.holds, Zone.covers, Bool.and_eq_true, decide_eq_true_eq, hz, hr,
    and_assoc]

end Sys2Proof.Machine
end

