-- ==== Sys2Proof/Laws/Engines.lean ====
section
/-! SUPPORT. What the marker engines keep while cells are evaluated and due tests are made: a mark in progress
and its outputs change only through the phases' own commands (R155–R157). A queue alone may change. -/
namespace Sys2Proof.Machine

/-! ## Replacing a queue -/

theorem setQueue_self (s : State) (r : Rail) (q : List MarkerEntry) (h : (s.marker.engines.get r).queue = q) :
    s.setQueue r q = s := by
  subst h; cases r <;> rfl

theorem setQueue_setQueue (s : State) (r : Rail) (q q' : List MarkerEntry) :
    (s.setQueue r q).setQueue r q' = s.setQueue r q' := by
  cases r <;> rfl

theorem setQueue_emit (s : State) (r : Rail) (q : List MarkerEntry) (x : Record) :
    (s.setQueue r q).emit x = (s.emit x).setQueue r q := by
  cases r <;> rfl

/-! ## What a due test reads (R149, R152) -/

/-- Two states are the same to the due test of a rail: the queue, and what its distances and its records are made from. -/
def sameDue (r : Rail) (u v : State) : Prop :=
  (u.marker.engines.get r).queue = (v.marker.engines.get r).queue ∧ u.odo = v.odo ∧ u.params = v.params
    ∧ u.run = v.run ∧ u.marker.lead = v.marker.lead

theorem dueTestLoop_congr (r : Rail) (n : Nat) {u v : State} (h : sameDue r u v) :
    ((dueTestLoop r n u).marker.engines.get r).queue = ((dueTestLoop r n v).marker.engines.get r).queue ∧
    (u.link = v.link → (dueTestLoop r n u).link = (dueTestLoop r n v).link) := by
  induction n generalizing u v with
  | zero => exact ⟨h.1, id⟩
  | succ n ih =>
    obtain ⟨h1, h2, h3, h4, h5⟩ := h
    have hp : ∀ e, u.past r e = v.past r e := by
      intro e; unfold State.past State.gun State.firePoint; rw [h2, h3, h5]
    have hl : ∀ e, u.latch r e = v.latch r e := by intro e; unfold State.latch; rw [hp]
    have hd : ∀ e, u.isDue r e = v.isDue r e := by intro e; unfold State.isDue; rw [hp]
    have ht : ∀ e, u.lateness r e = v.lateness r e := by intro e; unfold State.lateness; rw [hp]
    have hm : ∀ o e x, u.markRecord r o e x = v.markRecord r o e x := by
      intro o e x; unfold State.markRecord State.gun; rw [h2, h3, h4]
    unfold dueTestLoop
    rw [h1]
    cases hq : (v.marker.engines.get r).queue with
    | nil => exact ⟨by dsimp only; rw [h1], id⟩
    | cons e rest =>
      dsimp only
      rw [hd, hl, ht, h3, hm]
      split
      · obtain ⟨k1, k2⟩ := ih
          (u := (u.setQueue r rest).emit (v.markRecord r .droppedLate e (v.lateness r e)))
          (v := (v.setQueue r rest).emit (v.markRecord r .droppedLate e (v.lateness r e)))
          ⟨by simp [State.setQueue], h2, h3, h4, h5⟩
        refine ⟨k1, fun hx => k2 ?_⟩
        simp only [State.emit, State.setQueue, State.setEngine, State.setMarker, State.setLink, hx, h2]
      · exact ⟨by simp [State.setQueue], id⟩

/-- The due test of a rail leaves the same queue, and gives the same records, wherever it reads the same. -/
theorem dueTest_congr {r : Rail} {u v : State} (h : sameDue r u v) :
    ((u.dueTest r).marker.engines.get r).queue = ((v.dueTest r).marker.engines.get r).queue ∧
    (u.link = v.link → (u.dueTest r).link = (v.dueTest r).link) := by
  unfold State.dueTest; rw [h.1]; exact dueTestLoop_congr _ _ h

theorem dueTest_nil (s : State) (r : Rail) (h : (s.marker.engines.get r).queue = []) : s.dueTest r = s := by
  unfold State.dueTest; rw [h]; unfold dueTestLoop; rw [h]

/-- An engine that enters IDLE leaves the queue and gives the records that the due test alone does (R149). -/
theorem enterIdle_dueTest (s : State) (r : Rail) :
    ((s.enterIdle r).marker.engines.get r).queue = ((s.dueTest r).marker.engines.get r).queue ∧
    (s.enterIdle r).link = (s.dueTest r).link := by
  have h : sameDue r (s.enter r .idle .off) s := ⟨by simp [State.enter], rfl, rfl, rfl, rfl⟩
  exact ⟨(dueTest_congr h).1, (dueTest_congr h).2 rfl⟩

/-! ## Engines that stand as they stood -/

/-- Every engine has the state and the outputs it had; its queue may differ. -/
def sameEngines (s t : State) : Prop :=
  ∀ r : Rail, (t.marker.engines.get r).state = (s.marker.engines.get r).state
    ∧ (t.marker.engines.get r).valves = (s.marker.engines.get r).valves

namespace SameEngines

/-- The relation is reflexive, transitive, and holds where the marker is unchanged. -/
theorem refl (s : State) : sameEngines s s := fun _ => ⟨rfl, rfl⟩

theorem trans {s t u : State} (h : sameEngines s t) (k : sameEngines t u) : sameEngines s u :=
  fun r => ⟨(k r).1.trans (h r).1, (k r).2.trans (h r).2⟩

theorem of {bs : List Block} {s t : State} (h : changesOnly bs s t) (hm : Block.marker ∉ bs) :
    sameEngines s t := by
  intro r
  rw [show t.marker = s.marker from changesOnly_same h .marker hm]
  exact ⟨rfl, rfl⟩

theorem foldl {α : Type} (f : State → α → State) (h : ∀ s a, sameEngines s (f s a)) (l : List α) (s : State) :
    sameEngines s (l.foldl f s) := by
  induction l generalizing s with
  | nil => exact refl _
  | cons a l ih => exact trans (h s a) (ih _)

theorem setQueue (s : State) (r : Rail) (q : List MarkerEntry) : sameEngines s (s.setQueue r q) := by
  intro p; cases r <;> cases p <;> exact ⟨rfl, rfl⟩

/-- The due tests drop and latch heads, no more (R149, R152). -/
theorem dueTest (s : State) (r : Rail) : sameEngines s (s.dueTest r) := by
  obtain ⟨h1, h2, h3, -⟩ := dueTest_engine s r
  intro p
  by_cases hp : p = r
  · subst hp; exact ⟨h2, h3⟩
  · rw [h1 p hp]; exact ⟨rfl, rfl⟩

theorem dueTests (s : State) : sameEngines s s.dueTests := trans (dueTest _ _) (dueTest _ _)

/-- An evaluation offers entries and starts no mark (R136, R147). -/
theorem markerOffer (s : State) (r : Rail) (spray : Option (Fin 7)) (cls : Fin 16) (tick : Int) :
    sameEngines s (s.markerOffer r spray cls tick) := by
  unfold State.markerOffer State.takeOffer
  repeat' split
  all_goals first | exact refl _ | exact setQueue _ _ _

theorem updateAlert (s : State) (urgent : Bool) (r : Rail) (cls : Fin 16) (tick : Int) :
    sameEngines s (s.updateAlert urgent r cls tick) := by
  unfold State.updateAlert
  split
  · exact of (setEval_changes _ _) (by simp)
  · exact refl _

theorem issueFinding (s : State) (r : Rail) (p : Fin 32) (run : PatternRun) (capped : Bool) :
    sameEngines s (s.issueFinding r p run capped) :=
  trans (trans (trans (markerOffer _ _ _ _ _) (updateAlert _ _ _ _ _)) (of (emit_changes _ _) (by simp)))
    (dueTest _ _)

theorem evalPattern (s : State) (r : Rail) (c : Int) (p : Fin 32) : sameEngines s (s.evalPattern r c p) := by
  have h : ∀ x, sameEngines s (s.setPatternRun r p x) := fun x => of (setEval_changes _ _) (by simp)
  unfold State.evalPattern State.endRunOf
  dsimp only
  repeat' split
  all_goals first | exact refl _ | exact h _ | exact trans (h _) (issueFinding _ _ _ _ _)

theorem evalGap (s : State) (r : Rail) (c : Int) : sameEngines s (s.evalGap r c) := by
  have h : ∀ x, sameEngines s (s.setGapRun r x) := fun x => of (setEval_changes _ _) (by simp)
  unfold State.evalGap State.endGap State.issueGap
  dsimp only
  repeat' split
  all_goals first | exact h _ | exact trans (h _) (of (emit_changes _ _) (by simp))

theorem evaluate (s : State) (r : Rail) (c : Int) : sameEngines s (s.evaluate r c) :=
  trans (foldl _ (fun s p => evalPattern s r c p) _ _) (evalGap _ _ _)

/-- Cells close without a change of an engine (R92, R93). -/
theorem closeCell (s : State) (r : Rail) (d : Bool) : sameEngines s (s.closeCell r d) := by
  have h : ∀ w, sameEngines s ((s.setWindow r w).expireZones) := fun w =>
    trans (of (setWindow_changes s r w) (by simp)) (of (setZones_changes _ _) (by simp))
  unfold State.closeCell
  dsimp only
  split
  · exact trans (h _) (evaluate _ _ _)
  · exact h _

theorem closeCells (r : Rail) (d : Bool) (n : Nat) (s : State) : sameEngines s (closeCells r d n s) := by
  induction n generalizing s with
  | zero => exact refl _
  | succ n ih => exact trans (closeCell _ _ _) (ih _)

theorem followCloseLine (s : State) (r : Rail) : sameEngines s (s.followCloseLine r) := by
  unfold State.followCloseLine
  split
  · exact refl _
  · exact closeCells _ _ _ _

end SameEngines

/-- The close line is followed in one window: K rises to the computed one and never falls (R91). -/
theorem followCloseLine_windows (s : State) (r : Rail) :
    (∀ q, q ≠ r → (s.followCloseLine r).windows.get q = s.windows.get q) ∧
    ((s.followCloseLine r).windows.get r).k =
      if s.run.state = .stopped then (s.windows.get r).k
      else max (s.windows.get r).k (s.computedK r) := by
  unfold State.followCloseLine
  split
  · exact ⟨fun _ _ => rfl, rfl⟩
  · obtain ⟨h1, h2⟩ := closeCells_window r false (s.computedK r - (s.windows.get r).k).toNat s
    refine ⟨h1, ?_⟩; rw [h2]; omega

end Sys2Proof.Machine
end

