-- ==== Sys2Proof/Laws/Evaluate.lean ====
section
/-! SUPPORT. The evaluator through the shared operations: masks, findings, the ends of runs, and what a flush,
a closed cell and a drain leave of the runs. -/
namespace Sys2Proof.Machine

/-- A mask of groups holds exactly the groups that pass the test. -/
theorem getLsbD_maskOf (f : Fin 8 → Bool) : ∀ g : Fin 8, (maskOf f).getLsbD g.val = f g := by
  have key : ∀ (l : List (Fin 8)) (m : Byte) (p : Fin 8),
      (l.foldl (fun m g => if f g then m ||| BitVec.ofNat 8 (2 ^ g.val) else m) m).getLsbD p.val =
          (m.getLsbD p.val || (decide (p ∈ l) && f p)) := by
    intro l
    induction l with
    | nil => intro m p; simp
    | cons q l ih =>
      intro m p
      rw [List.foldl_cons, ih]
      have hb : (BitVec.ofNat 8 (2 ^ q.val)).getLsbD p.val = decide (p = q) :=
        (by decide : ∀ p q : Fin 8, (BitVec.ofNat 8 (2 ^ q.val)).getLsbD p.val = decide (p = q)) p q
      by_cases hq : f q = true
      · simp only [hq, if_true, BitVec.getLsbD_or, hb]
        by_cases hpq : p = q
        · subst hpq; simp [hq]
        · simp [hpq]
      · simp only [hq]
        by_cases hpq : p = q
        · subst hpq; simp [hq]
        · simp [hpq]
  intro p
  have : p ∈ eight := (by decide : ∀ p : Fin 8, p ∈ eight) p
  rw [maskOf, key]
  simp [this]

/-- The due test leaves the evaluator, the coordinates, the zones and the windows. -/
theorem dueTest_other (s : State) (r : Rail) : (s.dueTest r).eval = s.eval ∧ (s.dueTest r).odo = s.odo
    ∧ (s.dueTest r).zones = s.zones
   ∧ (s.dueTest r).windows = s.windows :=
  ⟨changesOnly_same (dueTest_changes s r) .eval (by simp), changesOnly_same (dueTest_changes s r) .odo (by
      simp),
   changesOnly_same (dueTest_changes s r) .zones (by simp), changesOnly_same (dueTest_changes s r) .windows
       (by simp)⟩

/-- A finding changes of the evaluator the alert record alone, and that only if urgent (R136, R137). -/
theorem issueFinding_eval (s : State) (r : Rail) (p : Fin 32) (run : PatternRun) (capped : Bool) :
    (s.issueFinding r p run capped).eval = { s.eval with alert :=
      if (s.eval.patterns[p]).urgent = true then
        { start := s.startTick run.start, rail := r, cls := (s.eval.patterns[p]).cls, count :=
            s.eval.alert.count + 1 }
      else s.eval.alert } := by
  simp only [State.issueFinding, (dueTest_other _ _).1, State.emit_eval, State.updateAlert]
  simp only [State.findingOf, Fin.getElem_fin]
  split
  · rename_i h; simp [markerOffer_eval, h]
  · rename_i h; simp [markerOffer_eval, h]

/-- Ending a pattern's run closes that run (R132). -/
theorem endRunOf_runs (s : State) (r : Rail) (p : Fin 32) :
    (s.endRunOf r p).eval.runs = s.eval.runs.set r ((s.eval.runs.get r).set p .closed)
        ∧ (s.endRunOf r p).eval.gaps = s.eval.gaps := by
  unfold State.endRunOf; dsimp only; split
  · rw [issueFinding_eval]; exact ⟨rfl, rfl⟩
  · exact ⟨rfl, rfl⟩

theorem foldl_endRunOf (r : Rail) (l : List (Fin 32)) (s : State) :
    (∀ q : Fin 32, (((l.foldl (fun s p => s.endRunOf r p) s).eval.runs.get r)[q]) = if q ∈ l then .closed
        else (s.eval.runs.get r)[q]) ∧
    (∀ q, q ≠ r → (l.foldl (fun s p => s.endRunOf r p) s).eval.runs.get q = s.eval.runs.get q) ∧
    (l.foldl (fun s p => s.endRunOf r p) s).eval.gaps = s.eval.gaps := by
  induction l generalizing s with
  | nil => simp
  | cons p l ih =>
    obtain ⟨h1, h2, h3⟩ := ih (s.endRunOf r p)
    have e := endRunOf_runs s r p
    refine ⟨?_, ?_, ?_⟩
    · intro q
      rw [List.foldl_cons, h1]
      by_cases hq : q ∈ l
      · simp [hq]
      · simp only [hq, if_false, e.1, PerRail.get_set_same, List.mem_cons, or_false]
        by_cases hqp : q = p
        · subst hqp; simp
        · simp only [hqp, if_false, Fin.getElem_fin]; rw [Vector.getElem_set_ne]; intro hh;
              exact hqp (Fin.ext hh.symm)
    · intro q hq; rw [List.foldl_cons, h2 q hq, e.1, PerRail.get_set_ne _ hq]
    · rw [List.foldl_cons, h3, e.2]

/-- A flush closes every run and the gap run of its rail (R134, R140). -/
theorem flush_eval (s : State) (r : Rail) :
    (∀ p : Fin 32, (((s.flush r).eval.runs.get r)[p]).length = 0) ∧ ((s.flush r).eval.gaps.get r).length = 0 ∧
    (∀ q, q ≠ r → (s.flush r).eval.runs.get q = s.eval.runs.get q
        ∧ (s.flush r).eval.gaps.get q = s.eval.gaps.get q) := by
  unfold State.flush
  obtain ⟨h1, h2, h3⟩ := foldl_endRunOf r patternNumbers s
  generalize hu : (patternNumbers.foldl (fun s p => s.endRunOf r p) s) = u at h1 h2 h3
  have e : (u.endGap r).eval.runs = u.eval.runs ∧ (u.endGap r).eval.gaps = u.eval.gaps.set r {
      u.eval.gaps.get r with length := 0 } := by
    unfold State.endGap; dsimp only; split <;> simp [State.issueGap, State.setGapRun]
  rw [e.1, e.2]
  refine ⟨?_, by simp, ?_⟩
  · intro p; rw [h1, if_pos (by simp [patternNumbers])]; rfl
  · intro q hq; rw [h2 q hq, PerRail.get_set_ne _ hq, h3]; exact ⟨rfl, rfl⟩

/-- An evaluation leaves the runs and the gap run of the other rail. -/
theorem evaluate_other (s : State) (r : Rail) (c : Int) (q : Rail) (hq : q ≠ r) :
    (s.evaluate r c).eval.runs.get q = s.eval.runs.get q ∧ (s.evaluate r c).eval.gaps.get q =
        s.eval.gaps.get q := by
  have hp : ∀ (u : State) (p : Fin 32), (u.evalPattern r c p).eval.runs.get q = u.eval.runs.get q
      ∧ (u.evalPattern r c p).eval.gaps = u.eval.gaps := by
    intro u p
    unfold State.evalPattern State.endRunOf
    dsimp only
    repeat' split
    all_goals simp [issueFinding_eval, State.setPatternRun, PerRail.get_set_ne _ hq]
  have hf : ∀ (l : List (Fin 32)) (u : State), (l.foldl (fun s p => s.evalPattern r c p) u).eval.runs.get q
      = u.eval.runs.get q ∧ (l.foldl (fun s p => s.evalPattern r c p) u).eval.gaps = u.eval.gaps := by
    intro l
    induction l with
    | nil => intro u; exact ⟨rfl, rfl⟩
    | cons p l ih => intro u; rw [List.foldl_cons, (ih _).1, (ih _).2]; exact hp u p
  unfold State.evaluate
  have := hf patternNumbers s
  generalize hu : (patternNumbers.foldl (fun s p => s.evalPattern r c p) s) = u at this
  rw [← this.1, ← this.2]
  unfold State.evalGap State.endGap; dsimp only
  repeat' split
  all_goals simp [State.issueGap, State.setGapRun, PerRail.get_set_ne _ hq]

theorem closeCells_other (r : Rail) (d : Bool) (n : Nat) (s : State) (q : Rail) (hq : q ≠ r) :
    (closeCells r d n s).eval.runs.get q = s.eval.runs.get q ∧ (closeCells r d n s).eval.gaps.get q =
        s.eval.gaps.get q := by
  induction n generalizing s with
  | zero => exact ⟨rfl, rfl⟩
  | succ n ih =>
    rw [closeCells, (ih _).1, (ih _).2]
    unfold State.closeCell; dsimp only
    split
    · rw [(evaluate_other _ _ _ _ hq).1, (evaluate_other _ _ _ _ hq).2]; exact ⟨rfl, rfl⟩
    · exact ⟨rfl, rfl⟩

theorem drainRail_eval (s : State) (r : Rail) :
    (∀ p : Fin 32, (((s.drainRail r).eval.runs.get r)[p]).length = 0)
        ∧ ((s.drainRail r).eval.gaps.get r).length = 0 ∧
    (∀ q, q ≠ r → (s.drainRail r).eval.runs.get q = s.eval.runs.get q
        ∧ (s.drainRail r).eval.gaps.get q = s.eval.gaps.get q) := by
  unfold State.drainRail
  dsimp only
  obtain ⟨h1, h2, h3⟩ := flush_eval (closeCells r false 3 (closeCells r true ((s.windows.get r).highest + 1
      - (s.windows.get r).k).toNat s)) r
  refine ⟨h1, h2, ?_⟩
  intro q hq
  rw [(h3 q hq).1, (h3 q hq).2, (closeCells_other _ _ _ _ _ hq).1, (closeCells_other _ _ _ _ _ hq).2,
      (closeCells_other _ _ _ _ _ hq).1, (closeCells_other _ _ _ _ _ hq).2]
  exact ⟨rfl, rfl⟩

end Sys2Proof.Machine
end

