-- ==== Sys2Proof/Laws/Firing.lean ====
section
/-! SUPPORT. What beginning a step or a cycle leaves of the sequencer, the masks of probes, the enabled
    probes of a
lane, and the release of a firing record. -/
namespace Sys2Proof.Machine

theorem enabledProbes_isEmpty (s : State) (r : Rail) :
    (s.enabledProbes r).isEmpty = true ↔ ∀ p : Fin 16, (s.probes[probeNo r p]).enabled = false := by
  simp only [State.enabledProbes, List.isEmpty_iff, List.filter_eq_nil_iff]
  constructor
  · intro h p
    have : p ∈ localProbes := by revert p; decide
    simpa using h p this
  · intro h p _; simp only [h p]; decide

/-- A mask built over the local probes holds exactly the probes that pass the test. -/
theorem maskFold (f : Fin 16 → Bool) : ∀ p : Fin 16,
    (localProbes.foldl (fun m p => if f p then m ||| bit16 p.val else m) (0 : Word16)).getLsbD p.val = f p := by
  have key : ∀ (l : List (Fin 16)) (m : Word16) (p : Fin 16),
      (l.foldl (fun m p => if f p then m ||| bit16 p.val else m) m).getLsbD p.val =
        (m.getLsbD p.val || (decide (p ∈ l) && f p)) := by
    intro l
    induction l with
    | nil => intro m p; simp
    | cons q l ih =>
      intro m p
      rw [List.foldl_cons, ih]
      have hb : (bit16 q.val).getLsbD p.val = decide (p = q) := by revert p q; decide
      by_cases hq : f q = true
      · simp only [hq, if_true, BitVec.getLsbD_or, hb]
        by_cases hpq : p = q
        · subst hpq; simp [hq]
        · simp [hpq]
      · simp only [hq]
        by_cases hpq : p = q
        · subst hpq; simp [hq]
        · simp [hpq]
  intro p
  rw [key]
  have : p ∈ localProbes := by revert p; decide
  simp [this]

theorem bit16_get (p q : Nat) (hp : p < 16) (hq : q < 16) : (bit16 p).getLsbD q = decide (q = p) :=
  (by decide : ∀ p q : Fin 16, (bit16 p.val).getLsbD q.val = decide (q.val = p.val)) ⟨p, hp⟩ ⟨q, hq⟩

/-- A step that begins changes the cycle, the step timer, the tag counter and the ring (R42). -/
theorem beginStep_seq (s : State) (k : Fin 16) : (s.beginStep k).seq.cycle = .stepping k.val ∧
    (s.beginStep k).seq.kind = s.seq.kind ∧ (s.beginStep k).seq.overrun = s.seq.overrun
    ∧ (s.beginStep k).seq.stopping = s.seq.stopping ∧ (s.beginStep k).seq.lastTrigger = s.seq.lastTrigger
    ∧ (s.beginStep k).seq.pendingTrigger = s.seq.pendingTrigger
    ∧ (s.beginStep k).seq.overspeed = s.seq.overspeed
    ∧ (s.beginStep k).seq.keepAliveTimer = s.seq.keepAliveTimer
    ∧ (s.beginStep k).seq.stepTimer = ((s.seq.steps[k]).listen + 9) / 10 := by
  have h : ∀ (u : State) (r : Rail), (u.lanePart k r).seq =
      { u.seq with
        ring := (u.lanePart k r).seq.ring, tagCounter := (u.lanePart k r).seq.tagCounter } := by
    intro u r; unfold State.lanePart State.issueOrder; dsimp only; split <;> rfl
  simp only [State.beginStep, State.setSeq_seq]
  rw [h _ .b, h _ .a]
  simp [periods10, ceilDiv]

/-- A cycle that begins (R41). -/
theorem beginCycle_seq (s : State) (kind : CycleKind) (h : s.params.stepCount ≠ 0) :
    (s.beginCycle kind).seq.cycle = .stepping 0 ∧
    (s.beginCycle kind).seq.kind = kind ∧ (s.beginCycle kind).seq.overrun = false
    ∧ (s.beginCycle kind).seq.stopping = false ∧ (s.beginCycle kind).seq.lastTrigger = s.seq.lastTrigger
    ∧ (s.beginCycle kind).seq.pendingTrigger = s.seq.pendingTrigger
        ∧ (s.beginCycle kind).seq.overspeed = s.seq.overspeed
    ∧ (s.beginCycle kind).seq.keepAliveTimer = s.seq.keepAliveTimer
    ∧ (s.beginCycle kind).seq.stepTimer = ((s.seq.steps[(0 : Fin 16)]).listen + 9) / 10 := by
  rw [State.beginCycle, if_neg h]
  exact beginStep_seq _ 0

/-- Without a step no cycle begins (R41). -/
theorem beginCycle_none (s : State) (kind : CycleKind) (h : s.params.stepCount = 0) :
    s.beginCycle kind = s := by
  rw [State.beginCycle, if_pos h]

theorem settleOverspeed_changes (s : State) : changesOnly [.seq, .lanes, .link] s s.settleOverspeed := by
  unfold State.settleOverspeed
  split
  · exact changesOnly_trans (changesOnly_mono (setSeq_changes s _) (by simp))
        (changesOnly_mono (event_changes _ _) (by simp))
  · exact changesOnly_refl _ _

/-- OVERSPEED stays only with an overrun (R43, R45). -/
theorem settleOverspeed_seq (s : State) : s.settleOverspeed.seq =
    { s.seq with overspeed := s.seq.overspeed && s.seq.overrun } := by
  unfold State.settleOverspeed
  split
  · rename_i h; simp only [Bool.and_eq_true, Bool.not_eq_true'] at h; simp [h]
  · rename_i h
    have : (s.seq.overspeed && s.seq.overrun) = s.seq.overspeed := by
      cases h1 : s.seq.overspeed <;> cases h2 : s.seq.overrun <;> simp_all
    rw [this]

theorem freeSlot_same (s : State) (i : Fin 64) : (s.freeSlot i).seq.ring[i] =
    { s.seq.ring[i] with outstanding := false } := by
  simp [State.freeSlot]

theorem freeSlot_ne (s : State) (i : Fin 64) {j : Fin 64} (h : j ≠ i) :
    (s.freeSlot i).seq.ring[j] = s.seq.ring[j] := by
  simp only [State.freeSlot, State.setSeq_seq, Fin.getElem_fin]
  rw [Vector.getElem_set_ne]; intro hh; exact h (Fin.ext hh.symm)

theorem freeSlot_seq (s : State) (i : Fin 64) : (s.freeSlot i).seq =
    { s.seq with ring := (s.freeSlot i).seq.ring } := rfl

theorem orderTimedOut_seq (s : State) (r : Rail) : (s.orderTimedOut r).seq = s.seq :=
  changesOnly_same (orderTimedOut_changes s r) .seq (by simp)

theorem observeCoupling_lane (s : State) (r : Rail) (p : Fin 16) (xs : Vector GateResult 4) (k : CycleKind) :
    ((s.observeCoupling r p xs k).lanes.get r).state = (s.lanes.get r).state ∧
    ((s.observeCoupling r p xs k).lanes.get r).incomplete = (s.lanes.get r).incomplete ∧
    (s.observeCoupling r p xs k).seq = s.seq ∧ (s.observeCoupling r p xs k).windows = s.windows := by
  unfold State.observeCoupling
  simp

/-- A lane that goes down keeps its coupling records (R61). -/
theorem laneDown_lanes (s : State) (r : Rail) : ((s.laneDown r).lanes.get r).state = .down
    ∧ ((s.laneDown r).lanes.get r).coupling = (s.lanes.get r).coupling
    ∧ ∀ q, q ≠ r → (s.laneDown r).lanes.get q = s.lanes.get q := by
  unfold State.laneDown; dsimp only; split
  · exact ⟨‹_›, rfl, fun _ _ => rfl⟩
  · simp only [State.changeLane]
    refine ⟨by simp, by simp, ?_⟩
    intro q hq; simp [State.setLane, PerRail.get_set_ne _ hq]

/-! ## The judging of the drain (R30) -/

theorem drainStarts_iff (s : State) : s.drainStarts = true ↔ s.run.state = .draining
    ∧ ∀ j : Fin 64, (s.seq.ring[j]).outstanding = true → (s.seq.ring[j]).kind ≠ .distance := by
  unfold State.drainStarts Sequencer.distanceOutstanding
  rw [Bool.and_eq_true, decide_eq_true_iff, Bool.not_eq_true', List.any_eq_false]
  refine and_congr Iff.rfl ⟨fun h j ho hk => ?_, fun h x hx => ?_⟩
  · exact h _ (Vector.mem_toList_iff.2 (Vector.getElem_mem j.isLt)) (by
      rw [Bool.and_eq_true, decide_eq_true_iff]; exact ⟨ho, hk⟩)
  · obtain ⟨n, hn, rfl⟩ := Vector.mem_iff_getElem.1 (Vector.mem_toList_iff.1 hx)
    intro hc
    rw [Bool.and_eq_true, decide_eq_true_iff] at hc
    exact h ⟨n, hn⟩ hc.1 hc.2

/-- The drain goes to the front of the queue exactly where it can start. -/
theorem judgeDrain_pending (s : State) : s.judgeDrain.pending =
    if s.run.state = .draining ∧ ∀ j : Fin 64, (s.seq.ring[j]).outstanding = true → (s.seq.ring[j]).kind ≠ .distance
    then .drain :: s.pending else s.pending := by
  unfold State.judgeDrain
  by_cases h : s.drainStarts = true
  · rw [if_pos h, if_pos ((drainStarts_iff s).1 h)]; rfl
  · rw [if_neg h, if_neg (mt (drainStarts_iff s).2 h)]

/-- The release of slot `i`: for a DISTANCE record the drain is judged over the other slots. -/
theorem judgeRelease_pending (s t : State) (i : Fin 64) (k : CycleKind) (hi : (t.seq.ring[i]).outstanding = false)
    (ho : ∀ j : Fin 64, j ≠ i → t.seq.ring[j] = s.seq.ring[j]) (hr : t.run = s.run) (hp : t.pending = s.pending) :
    (t.judgeRelease k).pending =
      if s.run.state = .draining ∧ k = .distance
          ∧ ∀ j : Fin 64, j ≠ i → (s.seq.ring[j]).outstanding = true → (s.seq.ring[j]).kind ≠ .distance
      then .drain :: s.pending else s.pending := by
  cases k
  · show t.judgeDrain.pending = _
    rw [judgeDrain_pending, hr, hp]
    refine if_congr ⟨fun h => ⟨h.1, rfl, fun j hj => ?_⟩, fun h => ⟨h.1, fun j => ?_⟩⟩ rfl rfl
    · rw [← ho j hj]; exact h.2 j
    · by_cases hj : j = i
      · subst hj; rw [hi]; intro hc; cases hc
      · rw [ho j hj]; exact h.2.2 j hj
  · rw [if_neg (by simp)]; exact hp

end Sys2Proof.Machine
end

