-- ==== Sys2Proof/Laws/Runs.lean ====
section
/-! SUPPORT. The conditions of a tick, the values START_RUN sets in the Odometry Unit, a lane at START_RUN, and
the marks of the sequencer. -/
namespace Sys2Proof.Machine

theorem eventIf_odo (s : State) (c : Bool) (e : Event) : (s.eventIf c e).odo = s.odo :=
    changesOnly_same (eventIf_changes s c e) .odo (by simp)

/-- The conditions after a source tick (R6, R7, R9). -/
theorem judgeTick_odo (s : State) : s.judgeTick.odo =
    { s.odo with limit := limitOf s.odo.cp, retrace := decide (s.odo.cp < s.odo.hw), standstill := false } := by
  have f1 : s.followLimit.odo = { s.odo with limit := limitOf s.odo.cp } := by
    unfold State.followLimit State.eventIf; dsimp only; repeat' split
    all_goals rfl
  have f2 : ∀ u : State, u.followRetrace.odo = { u.odo with retrace := decide (u.odo.cp < u.odo.hw) } :=
      fun u => eventIf_odo _ _ _
  have f3 : ∀ u : State, u.clearStandstill.odo = { u.odo with standstill := false } :=
      fun u => eventIf_odo _ _ _
  have f4 : ∀ u : State, u.settleKeepAlive.odo = u.odo := fun u => changesOnly_same
      (settleKeepAlive_changes u) .odo (by simp)
  unfold State.judgeTick; rw [f4, f3, f2, f1]

theorem limitOf_upper (x : Int) : limitOf x = some .upper ↔ x = tickMax := by
  unfold limitOf; split
  · simp_all
  · split
    · rename_i h; rw [h]; decide
    · simp_all

theorem limitOf_lower (x : Int) : limitOf x = some .lower ↔ x = tickMin := by
  unfold limitOf; split
  · rename_i h; rw [h]; decide
  · split <;> simp_all

theorem clearSlip_odo (s : State) : s.clearSlip.odo = { s.odo.zeroStreaks with slip := false } :=
    eventIf_odo _ _ _

theorem returnSource_odo (s : State) (c : SourceCause) : (s.returnSource c).odo =
    { s.odo with source := .primary } := eventIf_odo _ _ _

theorem clearSlip_changes (s : State) : changesOnly [.odo, .link] s s.clearSlip :=
  changesOnly_trans (changesOnly_mono (setOdo_changes _ _) (by simp))
      (changesOnly_mono (eventIf_changes _ _ _) (by simp))

theorem returnSource_changes (s : State) (c : SourceCause) : changesOnly [.odo, .link] s (s.returnSource c) :=
  changesOnly_trans (changesOnly_mono (setOdo_changes _ _) (by simp))
      (changesOnly_mono (eventIf_changes _ _ _) (by simp))

/-- What START_RUN does in the Odometry Unit (R18). -/
theorem startOdometry_spec (s : State) : 
    s.startOdometry.odo =
      { s.odo with hw := s.odo.cp, retrace := false, source := .primary, slip := false, mismatch := 0,
                   agreement := 0, judgedP := 0, judgedS := 0, errorTally := 0 } ∧
      changesOnly [.odo, .link] s s.startOdometry := by
  refine ⟨?_, ?_⟩
  · unfold State.startOdometry
    simp only [State.setOdo_odo]
    rw [clearSlip_odo, returnSource_odo]
    have : ∀ u : State, u.followRetrace.odo = { u.odo with retrace := decide (u.odo.cp < u.odo.hw) } :=
        fun u => eventIf_odo _ _ _
    rw [this]; simp [Odometry.zeroStreaks]
  · unfold State.startOdometry
    exact changesOnly_trans (changesOnly_mono (setOdo_changes _ _) (by simp))
        (changesOnly_trans (followRetrace_changes _) (changesOnly_trans (returnSource_changes _ _)
        (changesOnly_trans (clearSlip_changes _) (changesOnly_mono (setOdo_changes _ _) (by simp)))))

/-- A lane at START_RUN (R57, R71). -/
theorem startLane_lanes (s : State) (r : Rail) :
    let l := (s.startLane r).lanes.get r
    (l.setupNumber = (s.lanes.get r).setupNumber + 1 ∧
      l.state = (if ∀ p : Fin 16, (s.probes[probeNo r p]).enabled = false then .ok else .setup) ∧
      l.corrupt = 0 ∧ l.stale = 0 ∧ l.unexpected = 0 ∧ l.duplicate = 0) ∧
    (∀ q, q ≠ r → (s.startLane r).lanes.get q = s.lanes.get q) ∧
    changesOnly [.lanes, .link] s (s.startLane r) := by
  have hp : ((s.setLane r (s.lanes.get r).zeroTallies).enabledProbes r).isEmpty = true ↔
      ∀ p : Fin 16, (s.probes[probeNo r p]).enabled = false :=
    enabledProbes_isEmpty (s.setLane r (s.lanes.get r).zeroTallies) r
  unfold State.startLane State.enterSetup
  dsimp only
  refine ⟨?_, ?_, ?_⟩
  · by_cases h : ∀ p : Fin 16, (s.probes[probeNo r p]).enabled = false
    · rw [if_pos h, if_pos (hp.2 h)]; simp [State.changeLane, State.setupLane, Lane.zeroTallies]
    · rw [if_neg h, if_neg (fun hx => h (hp.1 hx))]; simp [State.changeLane, State.setupLane,
          Lane.zeroTallies]
  · intro q hq; split <;> simp [State.changeLane, State.setLane, PerRail.get_set_ne _ hq]
  · have := enterSetup_changes (s.setLane r (s.lanes.get r).zeroTallies) r .runStart
    exact changesOnly_trans (changesOnly_mono (setLane_changes _ _ _) (by simp)) this

theorem settleKeepAlive_seq (s : State) : s.settleKeepAlive.seq =
    { s.seq with keepAliveTimer := if s.keepAliveRuns then s.seq.keepAliveTimer else 0 } := by
  unfold State.settleKeepAlive; split <;> simp_all

theorem markStopping_seq (s : State) :
    s.markStopping.seq = { s.seq with stopping := s.markStopping.seq.stopping } ∧
    (s.seq.cycle ≠ .idle → s.markStopping.seq.stopping = true) := by
  unfold State.markStopping; split
  · rename_i h; exact ⟨rfl, fun hx => absurd h hx⟩
  · exact ⟨rfl, fun _ => rfl⟩

end Sys2Proof.Machine
end

