-- ==== Sys2Proof/Laws/Events.lean ====
section
/-! SUPPORT. The EVENTs that a shared operation gives to the report lanes, in the words of the claims: which EVENT a
condition, a lane or a suspension gives at a change, a step begun and the SETUP messages of a transfer. -/
namespace Sys2Proof.Machine

/-! ## EVENTs given one after another (R17, R172) -/

@[simp] theorem told_nil (l : LinkState) (cp : Int) : l.told cp [] = l := rfl

theorem told_cons (l : LinkState) (cp : Int) (e : Event) (es : List Event) :
    l.told cp (e :: es) = (l.offer cp (.event cp e)).told cp es := rfl

theorem told_append (l : LinkState) (cp : Int) (xs ys : List Event) :
    l.told cp (xs ++ ys) = (l.told cp xs).told cp ys := by
  simp [LinkState.told, List.foldl_append]

theorem event_link (s : State) (e : Event) : (s.event e).link = s.link.told s.odo.cp [e] := rfl

theorem eventIf_link (s : State) (c : Bool) (e : Event) :
    (s.eventIf c e).link = s.link.told s.odo.cp (if c = true then [e] else []) := by
  unfold State.eventIf; split <;> rfl

/-! ## Conditions of the odometry (R6, R7, R9, R12–R14) -/

theorem followLimit_link (s : State) : s.followLimit.link = s.link.told s.odo.cp
    (if limitOf s.odo.cp = s.odo.limit then []
      else match limitOf s.odo.cp, s.odo.limit with
        | some e, _ => [.limit true e]
        | none, some e => [.limit false e]
        | none, none => []) := by
  unfold State.followLimit
  dsimp only
  cases h : s.odo.limit <;> cases h' : limitOf s.odo.cp
  · rfl
  · rfl
  · rfl
  · rename_i a b
    dsimp only
    rw [eventIf_link]
    by_cases hab : a = b
    · subst hab; simp
    · have : b ≠ a := fun x => hab x.symm
      simp [hab, this]

theorem followRetrace_link (s : State) : s.followRetrace.link = s.link.told s.odo.cp
    (if decide (s.odo.cp < s.odo.hw) = s.odo.retrace then []
      else [.retrace (decide (s.odo.cp < s.odo.hw)) s.odo.hw]) := by
  unfold State.followRetrace
  rw [eventIf_link]
  by_cases h : decide (s.odo.cp < s.odo.hw) = s.odo.retrace
  · rw [if_pos h, ← h]; simp
  · rw [if_neg h, if_pos (by simpa using fun x => h x.symm)]; rfl

theorem clearStandstill_link (s : State) : s.clearStandstill.link = s.link.told s.odo.cp
    (if s.odo.standstill = true then [.standstill false] else []) := by
  unfold State.clearStandstill; rw [eventIf_link]; rfl

theorem settleOverspeed_link (s : State) : s.settleOverspeed.link = s.link.told s.odo.cp
    (if s.seq.overspeed = true ∧ s.seq.overrun = false then [.overspeed false 0 0] else []) := by
  unfold State.settleOverspeed
  by_cases h : s.seq.overspeed = true ∧ s.seq.overrun = false
  · rw [if_pos (by simp [h.1, h.2]), if_pos h]; rfl
  · rw [if_neg (by simpa using h), if_neg h]; rfl

/-! ## Lanes (R56, R57) -/

theorem changeLane_link (s : State) (r : Rail) (l : Lane) (cause : LaneCause) :
    (s.changeLane r l cause).link = s.link.told s.odo.cp
      [.laneState r l.state (s.lanes.get r).state l.setupNumber cause] := rfl

theorem setupMessages_eq (number : Byte) (probes : Vector Probe 32) (r : Rail) (ps : List (Fin 16))
    (h : ps.Nodup) : setupMessages number probes r ps =
      ps.map fun p => .setup number p.val (decide (ps.getLast? = some p)) (probes[probeNo r p]).gateWindows := by
  induction ps with
  | nil => rfl
  | cons p rest ih =>
    obtain ⟨hp, hr⟩ := List.nodup_cons.1 h
    rw [setupMessages, ih hr, List.map_cons]
    congr 1
    · cases rest with
      | nil => simp
      | cons q qs =>
        have : (q :: qs).getLast? ≠ some p := fun x => hp (List.mem_of_getLast? x)
        simp [List.getLast?_cons_cons, this]
    · refine List.map_congr_left fun q hq => ?_
      cases rest with
      | nil => simp at hq
      | cons q' qs => simp [List.getLast?_cons_cons]

/-- The messages queued on entry to SETUP are those of R57. -/
theorem setupMessages_transfer (s : State) (r : Rail) (number : Byte) :
    setupMessages number s.probes r (s.enabledProbes r) = setupTransfer number s.probes r := by
  have hl : localProbes = List.finRange 16 := by decide
  have hn : (s.enabledProbes r).Nodup := by
    unfold State.enabledProbes; rw [hl]; exact (List.nodup_finRange 16).filter _
  rw [setupMessages_eq _ _ _ _ hn]
  unfold State.enabledProbes setupTransfer
  rw [hl]
  rfl

/-- A lane at START_RUN has its SETUP messages queued (R57). -/
theorem startLane_txQueue (s : State) (r : Rail) : ((s.startLane r).lanes.get r).txQueue =
    (s.lanes.get r).txQueue ++ setupTransfer ((s.lanes.get r).setupNumber + 1) s.probes r := by
  have h := setupMessages_transfer (s.setLane r (s.lanes.get r).zeroTallies) r
    ((s.lanes.get r).setupNumber + 1)
  simp only [State.setLane_probes] at h
  unfold State.startLane State.enterSetup
  dsimp only
  split <;> simp [State.changeLane, State.setupLane, Lane.zeroTallies] <;> exact h

theorem startLane_link (s : State) (r : Rail) : (s.startLane r).link = s.link.told s.odo.cp
    (.laneState r .setup (s.lanes.get r).state ((s.lanes.get r).setupNumber + 1) .runStart
      :: if ∀ p : Fin 16, (s.probes[probeNo r p]).enabled = false
        then [.laneState r .ok .setup ((s.lanes.get r).setupNumber + 1) .noProbes] else []) := by
  have hp : ((s.setLane r (s.lanes.get r).zeroTallies).enabledProbes r).isEmpty = true ↔
      ∀ p : Fin 16, (s.probes[probeNo r p]).enabled = false :=
    enabledProbes_isEmpty (s.setLane r (s.lanes.get r).zeroTallies) r
  unfold State.startLane State.enterSetup
  dsimp only
  by_cases h : ∀ p : Fin 16, (s.probes[probeNo r p]).enabled = false
  · rw [if_pos h, if_pos (hp.2 h)]
    simp only [changeLane_link]
    simp [State.changeLane, State.setupLane, Lane.zeroTallies, told_cons]
  · rw [if_neg h, if_neg (fun hx => h (hp.1 hx)), changeLane_link]
    simp [State.setupLane, Lane.zeroTallies]

theorem laneDown_link (s : State) (r : Rail) : (s.laneDown r).link = s.link.told s.odo.cp
    (if (s.lanes.get r).state = .down then []
      else [.laneState r .down (s.lanes.get r).state (s.lanes.get r).setupNumber .drainEnd]) := by
  unfold State.laneDown; dsimp only
  split
  · simp
  · rw [changeLane_link]

/-! ## START_RUN (R18) -/

theorem startOdometry_link (s : State) : s.startOdometry.link = s.link.told s.odo.cp
    ((if s.odo.retrace = true then [.retrace false s.odo.cp] else [])
      ++ (if s.odo.source = .secondary then [.source .primary .startRun] else [])
      ++ (if s.odo.slip = true then [.slip false s.odo.judgedP s.odo.judgedS] else [])) := by
  have h : ∀ u : State, u.followRetrace.odo = { u.odo with retrace := decide (u.odo.cp < u.odo.hw) } :=
    fun u => eventIf_odo _ _ _
  unfold State.startOdometry State.clearSlip State.returnSource
  dsimp only
  simp only [State.setOdo_link, eventIf_link, followRetrace_link, eventIf_odo, State.setOdo_odo, told_append, h,
    Odometry.zeroStreaks]
  cases s.odo.retrace <;> cases s.odo.source <;> simp

/-- An accepted SECONDARY_MODE write: SLIP, then SOURCE (R13). -/
theorem modeWritten_link (s : State) : s.modeWritten.link = s.link.told s.odo.cp
    ((if s.odo.slip = true then [.slip false s.odo.judgedP s.odo.judgedS] else [])
      ++ (if s.params.secondaryMode = .off ∧ s.odo.source = .secondary then [.source .primary .modeWrite] else [])) := by
  unfold State.modeWritten State.returnSource State.clearSlip
  split <;> rename_i h
  · simp only [eventIf_link, State.setOdo_link, State.setOdo_odo, told_append, eventIf_odo, Odometry.zeroStreaks, h]
    cases s.odo.source <;> simp
  · simp only [eventIf_link, State.setOdo_link, State.setOdo_odo, h, Odometry.zeroStreaks]; simp

/-! ## Slip (R11, R12) -/

theorem failover_link (s : State) : s.failover.link = s.link.told s.odo.cp
    (if s.failover.odo.source = s.odo.source then [] else [.source s.failover.odo.source .failover]) := by
  unfold State.failover
  by_cases h : s.params.secondaryMode = .failover
  · rw [if_pos h, eventIf_link]
    by_cases h' : s.odo.chosenSource = s.odo.source <;> simp [h', State.eventIf]
  · simp [h]

/-! ## Steps (R42) -/

theorem beginStep_eq (s : State) (k : Fin 16) : s.beginStep k = stepBegun s k := rfl

/-- A cycle that begins is its step 0 begun, with its kind and its marks clear (R41). -/
theorem beginCycle_eq (s : State) (kind : CycleKind) (h : s.params.stepCount ≠ 0) :
    s.beginCycle kind = stepBegun (s.setSeq { s.seq with
      kind := kind, overrun := false, stopping := false }) 0 := by
  rw [State.beginCycle, if_neg h]; rfl

/-! ## Suspension (R26, R118, R119) -/

/-- Suspension judged again is suspension as the causes ask. -/
theorem judgeSuspension_eq (s : State) (onset : SuspendBeginCause) (finish : SuspendEndCause) :
    s.judgeSuspension onset finish = s.suspendedTo s.suspensionCause onset finish := by
  unfold State.judgeSuspension State.suspendedTo
  cases s.suspensionCause <;> cases s.run.suspension <;> rfl

/-- What a suspension gives to the lanes depends on the zones, CP, the reach, CLOSE_MARGIN and the link alone. -/
theorem suspendedTo_link {s t : State} (ho : t.odo.cp = s.odo.cp) (hr : t.run.reachAll = s.run.reachAll)
    (hs : t.run.suspension = s.run.suspension) (hp : t.params = s.params) (hz : t.zones = s.zones)
    (hl : t.link = s.link) (b : Bool) (onset : SuspendBeginCause) (finish : SuspendEndCause) :
    (t.suspendedTo b onset finish).link = (s.suspendedTo b onset finish).link := by
  unfold State.suspendedTo
  rw [hs]
  split
  · exact hl
  split
  · unfold State.beginSuspension State.suspendStart
    simp only [State.setRun_odo, State.setRun_run, State.setRun_params, State.setRun_zones, ho, hr, hp, hz]
    split <;> simp only [event_link, State.setZones_link, State.setZones_odo, State.setRun_link,
      State.setRun_odo, ho, hl]
  · unfold State.endSuspension State.suspendStop
    simp only [State.setRun_odo, State.setRun_run, State.setRun_zones, ho, hr, hz]
    split <;> simp only [event_link, State.setZones_link, State.setZones_odo, State.setRun_link,
      State.setRun_odo, ho, hl]

end Sys2Proof.Machine
end

