-- ==== Sys2Proof/Laws/Ops.lean ====
section
/-! SUPPORT. What the shared operations of Ops.lean do, once: the guards, the frame of an execution. -/
namespace Sys2Proof.Machine

/-! ## Guards -/

@[simp] theorem unlessHeld_free {s : State} (h : s.held = false) (f : State → State) :
    s.unlessHeld f = f s := by simp [State.unlessHeld, h]

@[simp] theorem unlessHeld_held {s : State} (h : s.held = true) (f : State → State) :
    s.unlessHeld f = s := by simp [State.unlessHeld, h]

/-- A command with the index's parameters is judged by its owner, its frame gone from the intake (R178, R179). -/
@[simp] theorem command_fields {α : Type} {s : State} (h : s.held = false) (m : Sender) (code : Byte) (a : α)
    (owner : α → State → State) : s.command m code (.fields a) owner = owner a (s.take m code) := by
  simp [State.command, h]

/-- A command with another parameter length is answered LENGTH (R179). -/
@[simp] theorem command_wrongLength {α : Type} {s : State} (h : s.held = false) (m : Sender) (code : Byte)
    (n : Nat) (owner : α → State → State) :
    s.command m code (.wrongLength n) owner = (s.take m code).refuse m code .length := by
  simp [State.command, h]

/-- An answer is found by giving the next state. -/
theorem answers_next {i : Instr} {s t : State} {p : State → Prop} (h : exec i s = .next t) (hp : p t) :
    answers i s p := ⟨t, h, hp⟩

end Sys2Proof.Machine
end

