-- ==== Sys2Proof/Laws/Exec.lean ====
section
/-! SUPPORT. For each command, once, which blocks of the state it can change: `exec_changes`. -/
namespace Sys2Proof.Machine

/-! ## The guards -/

theorem unlessHeld_changes {bs : List Block} {s : State} {f : State → State} (h : changesOnly bs s (f s)) :
    changesOnly bs s (s.unlessHeld f) := by
  unfold State.unlessHeld; split
  · exact changesOnly_refl _ _
  · exact h

theorem command_changes {α : Type} {bs : List Block} {s : State} {m : Sender} {code : Byte} {p : Params α}
    {owner : α → State → State} (hl : .link ∈ bs) (h : ∀ a t, changesOnly bs t (owner a t)) :
    changesOnly bs s (s.command m code p owner) := by
  have hm : ∀ b ∈ [Block.link], b ∈ bs := by simpa using hl
  apply unlessHeld_changes
  cases p with
  | wrongLength n =>
    exact changesOnly_trans (changesOnly_mono (take_changes _ _ _) hm)
      (changesOnly_mono (reply_changes _ _ _ _ _) hm)
  | fields a => exact changesOnly_trans (changesOnly_mono (take_changes _ _ _) hm) (h a _)

/-! ## Events -/

theorem turn_changes (s : State) (e : Encoder) (q : Quadrature) : changesOnly [.odo, .pins] s (s.turn e q) := by
  intro b; cases b <;> simp [Block.same, State.turn]

theorem countDistance_changes (s : State) (r : Rail) : changesOnly [.marker] s (s.countDistance r) :=
  setEngine_changes _ _ _

theorem sourceTick_changes (s : State) (d : Direction) :
    changesOnly [.odo, .seq, .lanes, .windows, .zones, .eval, .marker, .link] s (s.sourceTick d) := by
  unfold State.sourceTick; dsimp only
  have h := changesOnly_trans (bs := [.odo, .seq, .lanes, .windows, .zones, .eval, .marker, .link])
    (changesOnly_mono (setOdo_changes s (s.odo.sourceTick d)) (by simp))
    (changesOnly_mono (judgeTick_changes _) (by simp))
  split
  · exact h
  · exact changesOnly_trans h (changesOnly_mono (cpChanged_changes _) (by simp))

theorem encoderTick_changes (e : Encoder) (d : Direction) (s : State) :
    changesOnly [.odo, .seq, .lanes, .windows, .zones, .eval, .marker, .link, .pins] s (encoderTick e d s) := by
  unfold encoderTick; dsimp only
  have h := changesOnly_trans (bs := [.odo, .seq, .lanes, .windows, .zones, .eval, .marker, .link, .pins])
    (changesOnly_mono (turn_changes s e ((s.odo.quadrature e).ticked d)) (by simp))
    (changesOnly_mono (setOdo_changes _ ((s.turn e ((s.odo.quadrature e).ticked d)).odo.addDelta e d)) (by simp))
  split
  · exact changesOnly_trans h (changesOnly_mono (sourceTick_changes _ d) (by simp))
  · exact h

theorem illegalTransition_changes (e : Encoder) (s : State) :
    changesOnly [.odo, .pins] s (illegalTransition e s) := by
  unfold illegalTransition; dsimp only; split
  · exact changesOnly_trans (turn_changes _ _ _) (changesOnly_mono (setOdo_changes _ _) (by simp))
  · exact turn_changes _ _ _

theorem updateLead_changes (s : State) : changesOnly [.marker] s s.updateLead := setMarker_changes _ _

theorem standstillSet_changes (s : State) :
    changesOnly [.odo, .seq, .marker, .link] s (standstillSet s) := by
  unfold standstillSet; split
  · exact changesOnly_refl _ _
  · exact changesOnly_trans (changesOnly_trans (changesOnly_trans (changesOnly_trans
      (changesOnly_mono (setOdo_changes _ _) (by simp)) (changesOnly_mono (event_changes _ _) (by simp)))
      (changesOnly_mono (settleKeepAlive_changes _) (by simp)))
      (changesOnly_mono (updateLead_changes _) (by simp))) (changesOnly_mono (dueTests_changes _) (by simp))

theorem speedIntervalEnd_changes (s : State) : changesOnly [.odo, .marker, .link] s (speedIntervalEnd s) :=
  changesOnly_trans (changesOnly_trans (changesOnly_mono (setOdo_changes _ _) (by simp))
    (changesOnly_mono (updateLead_changes _) (by simp))) (changesOnly_mono (dueTests_changes _) (by simp))

theorem decideSlip_changes (s : State) : changesOnly [.odo, .link] s s.decideSlip := by
  have hf : ∀ u : State, changesOnly [.odo, .link] u u.failover := by
    intro u; unfold State.failover; split
    · exact changesOnly_trans (changesOnly_mono (setOdo_changes _ _) (by simp))
        (changesOnly_mono (eventIf_changes _ _ _) (by simp))
    · exact changesOnly_refl _ _
  have he : ∀ (o : Odometry) (e : Event), changesOnly [.odo, .link] s ((s.setOdo o).event e) := fun o e =>
    changesOnly_trans (changesOnly_mono (setOdo_changes _ _) (by simp))
      (changesOnly_mono (event_changes _ _) (by simp))
  unfold State.decideSlip; split
  · exact changesOnly_trans (he _ _) (hf _)
  · split
    · exact he _ _
    · exact changesOnly_refl _ _

theorem slipWindowEnd_changes (s : State) : changesOnly [.odo, .link] s (slipWindowEnd s) := by
  have h : changesOnly [.odo, .link] s s.judgeSlip := by
    unfold State.judgeSlip; split
    · exact changesOnly_refl _ _
    · exact changesOnly_trans (changesOnly_mono (setOdo_changes _ _) (by simp)) (decideSlip_changes _)
  exact changesOnly_trans (changesOnly_trans h (changesOnly_mono (eventIf_changes _ _ _) (by simp)))
    (changesOnly_mono (setOdo_changes _ _) (by simp))

theorem acceptLift_changes (s : State) (v : Bool) :
    changesOnly [.odo, .run, .seq, .zones, .link] s (s.acceptLift v) := by
  have h0 : changesOnly [.odo, .run, .seq, .zones, .link] s
      ((s.setOdo { s.odo with lifted := v }).event (.lift v)) :=
    changesOnly_trans (changesOnly_mono (setOdo_changes _ _) (by simp))
      (changesOnly_mono (event_changes _ _) (by simp))
  unfold State.acceptLift; dsimp only; split
  · exact changesOnly_trans (changesOnly_trans (changesOnly_trans h0
      (changesOnly_mono (markStopping_changes _) (by simp)))
      (changesOnly_mono (judgeSuspension_changes _ _ _) (by simp)))
      (changesOnly_mono (settleKeepAlive_changes _) (by simp))
  · exact changesOnly_trans (changesOnly_trans h0
      (changesOnly_mono (judgeSuspension_changes _ _ _) (by simp)))
      (changesOnly_mono (settleKeepAlive_changes _) (by simp))

theorem setPins_changes (s : State) (x : Pins) : changesOnly [.pins] s (s.setPins x) := by
  intro b; cases b <;> simp [Block.same]

theorem liftSample_changes (v : Bool) (s : State) :
    changesOnly [.odo, .run, .seq, .zones, .link, .pins] s (liftSample v s) := by
  unfold liftSample; dsimp only
  have h := changesOnly_trans (bs := [.odo, .run, .seq, .zones, .link, .pins])
    (changesOnly_mono (setOdo_changes s { s.odo with liftSample := v, liftTimer := 0 }) (by simp))
    (changesOnly_mono (setPins_changes _ { s.pins with lift := v }) (by simp))
  split
  · exact changesOnly_trans h (changesOnly_mono (acceptLift_changes _ v) (by simp))
  · exact h

theorem keepaliveTrigger_changes (s : State) : changesOnly [.seq, .lanes] s (keepaliveTrigger s) := by
  unfold keepaliveTrigger; split
  · have h := changesOnly_mono (cs := [.seq, .lanes])
      (setSeq_changes s { s.seq with keepAliveTimer := 0 }) (by simp)
    dsimp only; split
    · exact changesOnly_trans h (beginCycle_changes _ _)
    · exact h
  · exact changesOnly_refl _ _

theorem stepTimerExpiry_changes (s : State) : changesOnly [.seq, .lanes, .link] s (stepTimerExpiry s) := by
  unfold stepTimerExpiry; split
  · exact changesOnly_refl _ _
  · split
    · exact changesOnly_mono (beginStep_changes _ _) (by simp)
    · unfold State.endCycle; dsimp only
      have h := changesOnly_trans (settleOverspeed_changes s)
        (changesOnly_mono (cs := [.seq, .lanes, .link]) (setSeq_changes s.settleOverspeed
          { s.settleOverspeed.seq with cycle := .idle, stepTimer := 0, pendingTrigger := false }) (by simp))
      split
      · exact changesOnly_trans h (changesOnly_mono (beginCycle_changes _ _) (by simp))
      · exact h

theorem freeSlot_changes (s : State) (i : Fin 64) : changesOnly [.seq] s (s.freeSlot i) := setSeq_changes _ _

theorem firingRecordTimeout_changes (i : Fin 64) (s : State) :
    changesOnly [.seq, .lanes, .link, .pending] s (firingRecordTimeout i s) := by
  unfold firingRecordTimeout; split
  · exact changesOnly_trans (changesOnly_trans (changesOnly_mono (freeSlot_changes _ _) (by simp))
      (changesOnly_mono (orderTimedOut_changes _ _) (by simp)))
      (changesOnly_mono (judgeRelease_changes _ _) (by simp))
  · exact changesOnly_refl _ _

theorem setupMessageSent_changes (r : Rail) (s : State) : changesOnly [.lanes] s (setupMessageSent r s) := by
  unfold setupMessageSent; dsimp only; split
  · exact setLane_changes _ _ _
  · exact changesOnly_refl _ _

theorem fireMessageSent_changes (r : Rail) (s : State) : changesOnly [.lanes] s (fireMessageSent r s) := by
  unfold fireMessageSent; dsimp only; split
  · exact setLane_changes _ _ _
  · exact changesOnly_refl _ _

theorem readyReceived_changes (r : Rail) (n : Byte) (s : State) :
    changesOnly [.lanes, .link] s (readyReceived r n s) := by
  unfold readyReceived; dsimp only; split
  · exact changeLane_changes _ _ _ _
  · exact changesOnly_mono (setLane_changes _ _ _) (by simp)

theorem setupTimeout_changes (r : Rail) (s : State) : changesOnly [.lanes, .link] s (setupTimeout r s) := by
  unfold setupTimeout; dsimp only; split
  · exact changeLane_changes _ _ _ _
  · exact changesOnly_refl _ _

theorem retry_changes (r : Rail) (s : State) : changesOnly [.lanes, .link] s (retry r s) := by
  unfold retry; split
  · exact enterSetup_changes _ _ _
  · exact changesOnly_refl _ _

theorem report_changes (r : Rail) (tag probe : Byte) (xs : Vector GateResult 4) (s : State) :
    changesOnly [.seq, .lanes, .windows, .link, .pending] s (report r tag probe xs s) := by
  have hl : ∀ x : Lane, changesOnly [.seq, .lanes, .windows, .link, .pending] s (s.setLane r x) := fun x =>
    changesOnly_mono (setLane_changes _ _ _) (by simp)
  unfold report; dsimp only; split
  · exact hl _
  · exact hl _
  · exact hl _
  · unfold State.takeReport; dsimp only
    have h1 : ∀ u : State, ∀ i, changesOnly [.seq, .lanes, .windows, .link, .pending] u (u.completeRecord i) := by
      intro u i; unfold State.completeRecord; split
      · exact changesOnly_trans (changesOnly_trans (changesOnly_mono (freeSlot_changes _ _) (by simp))
          (changesOnly_mono (setLane_changes _ _ _) (by simp)))
          (changesOnly_mono (judgeRelease_changes _ _) (by simp))
      · exact changesOnly_refl _ _
    have h2 : ∀ (u : State) (x : FiringRecord),
        changesOnly [.seq, .lanes, .windows, .link, .pending] u (u.handIfAdmitted r (localOf probe) xs x) := by
      intro u x; unfold State.handIfAdmitted; split
      · exact changesOnly_mono (handAll_changes _ _ _ _ _) (by simp)
      · exact changesOnly_refl _ _
    exact changesOnly_trans (changesOnly_trans (changesOnly_trans
      (changesOnly_mono (setSeq_changes _ _) (by simp))
      (changesOnly_mono (observeCoupling_changes _ _ _ _ _) (by simp))) (h2 _ _)) (h1 _ _)

theorem drain_changes (s : State) :
    changesOnly [.run, .lanes, .windows, .zones, .eval, .marker, .link] s (drain s) := by
  unfold drain; split
  · refine changesOnly_trans (changesOnly_trans (changesOnly_mono (drainRail_changes s .a) (by simp))
      (changesOnly_mono (drainRail_changes _ .b) (by simp))) ?_
    unfold State.drainEnd; dsimp only
    exact changesOnly_trans (changesOnly_trans (changesOnly_trans
      (changesOnly_mono (laneDown_changes _ .a) (by simp)) (changesOnly_mono (laneDown_changes _ .b) (by simp)))
      (changesOnly_mono (setRun_changes _ _) (by simp))) (changesOnly_mono (event_changes _ _) (by simp))
  · exact changesOnly_refl _ _

/-! ## Engines -/

theorem enter_engine (s : State) (r : Rail) (e : EngineState) (v : Valves) :
    changesOnly [.marker] s (s.enter r e v) := setEngine_changes _ _ _

theorem enter_marker (s : State) (r : Rail) (e : EngineState) (v : Valves) :
    changesOnly [.marker, .link] s (s.enter r e v) := enter_changes s r e v

theorem enterIdle_changes (s : State) (r : Rail) : changesOnly [.marker, .link] s (s.enterIdle r) :=
  changesOnly_trans (enter_marker _ _ _ _) (dueTest_changes _ _)

theorem beginRecover_changes (s : State) (r : Rail) (m : Mark) :
    changesOnly [.marker, .link] s (s.beginRecover r m) := by
  unfold State.beginRecover; split
  · exact enterIdle_changes _ _
  · exact enter_marker _ _ _ _

theorem afterDashes_changes (s : State) (r : Rail) (m : Mark) :
    changesOnly [.marker, .link] s (s.afterDashes r m) := by
  unfold State.afterDashes; split
  · exact enter_marker _ _ _ _
  · exact beginRecover_changes _ _ _

theorem setQueue_marker (s : State) (r : Rail) (q : List MarkerEntry) :
    changesOnly [.marker, .link] s (s.setQueue r q) := changesOnly_mono (setQueue_changes s r q) (by simp)

theorem emit_marker (s : State) (x : Record) : changesOnly [.marker, .link] s (s.emit x) :=
  changesOnly_mono (emit_changes s x) (by simp)

theorem headTaken_changes (r : Rail) (s : State) : changesOnly [.marker, .link] s (headTaken r s) := by
  unfold headTaken; split
  · split
    · split
      · exact changesOnly_trans (changesOnly_trans (changesOnly_trans (setQueue_marker _ _ _)
          (enter_marker _ _ _ _)) (emit_marker _ _)) (dueTest_changes _ _)
      · split
        · exact changesOnly_trans (enter_marker _ _ _ _) (emit_marker _ _)
        · exact changesOnly_trans (changesOnly_trans (setQueue_marker _ _ _) (emit_marker _ _))
            (dueTest_changes _ _)
    · exact changesOnly_refl _ _
  · exact changesOnly_refl _ _

theorem pullinEnd_changes (r : Rail) (s : State) : changesOnly [.marker] s (pullinEnd r s) := by
  unfold pullinEnd; split
  · exact enter_engine _ _ _ _
  · exact changesOnly_refl _ _

theorem holdPulsePeriod_changes (r : Rail) (s : State) : changesOnly [.marker] s (holdPulsePeriod r s) := by
  unfold holdPulsePeriod; repeat' split
  all_goals first | exact enter_engine _ _ _ _ | exact changesOnly_refl _ _

theorem holdEnd_changes (r : Rail) (s : State) : changesOnly [.marker, .link] s (holdEnd r s) := by
  unfold holdEnd; repeat' split
  all_goals first
    | exact enter_marker _ _ _ _ | exact afterDashes_changes _ _ _ | exact changesOnly_refl _ _

theorem gapEnd_changes (r : Rail) (s : State) : changesOnly [.marker] s (gapEnd r s) := by
  unfold gapEnd; split
  · exact enter_engine _ _ _ _
  · exact changesOnly_refl _ _

theorem purgeEnd_changes (r : Rail) (s : State) : changesOnly [.marker, .link] s (purgeEnd r s) := by
  unfold purgeEnd; split
  · exact beginRecover_changes _ _ _
  · exact changesOnly_refl _ _

theorem recoverEnd_changes (r : Rail) (s : State) : changesOnly [.marker, .link] s (recoverEnd r s) := by
  unfold recoverEnd; split
  · exact enterIdle_changes _ _
  · exact changesOnly_refl _ _

theorem markerResume_changes (h : Sender) (a : MarkerResumeArgs) (s : State) :
    changesOnly [.marker, .link] s (markerResume h a s) := by
  have hr : ∀ (u : State) (x : Result) (bs : List Byte), changesOnly [.marker, .link] u (u.reply h 0x28 x bs) :=
    fun u x bs => changesOnly_mono (reply_changes _ _ _ _ _) (by simp)
  have h1 : ∀ r : Rail, changesOnly [.marker, .link] s (s.resumeRetry r) := by
    intro r; unfold State.resumeRetry; split
    · exact enterIdle_changes _ _
    · exact changesOnly_trans (setQueue_marker _ _ _) (enterIdle_changes _ _)
  have h2 : ∀ r : Rail, changesOnly [.marker, .link] s (s.resumeSkip r) := by
    intro r; unfold State.resumeSkip; split
    · exact enterIdle_changes _ _
    · exact changesOnly_trans (changesOnly_trans (setQueue_marker _ _ _) (emit_marker _ _))
        (enterIdle_changes _ _)
  unfold markerResume; split
  · exact hr _ _ _
  · split
    · exact hr _ _ _
    · split
      · dsimp only; split
        · exact changesOnly_trans (h1 _) (hr _ _ _)
        · exact changesOnly_trans (h2 _) (hr _ _ _)
      · exact hr _ _ _

theorem markerTest_changes (h : Sender) (a : MarkerTestArgs) (s : State) :
    changesOnly [.marker, .link, .freeCtr] s (markerTest h a s) := by
  have hr : ∀ (u : State) (x : Result) (bs : List Byte),
      changesOnly [.marker, .link, .freeCtr] u (u.reply h 0x29 x bs) :=
    fun u x bs => changesOnly_mono (reply_changes _ _ _ _ _) (by simp)
  have hd : ∀ (u : State) (n : Nat), changesOnly [.marker, .link, .freeCtr] u (u.drew n) := by
    intro u n b; cases b <;> simp [Block.same]
  unfold markerTest; repeat' split
  · exact changesOnly_trans (changesOnly_trans (changesOnly_trans
      (changesOnly_mono (enter_changes _ _ _ _) (by simp)) (changesOnly_mono (emit_changes _ _) (by simp)))
      (hd _ _)) (hr _ _ _)
  · exact hr _ _ _
  · exact hr _ _ _

theorem cancelAll_changes (r : Rail) (q : List MarkerEntry) (s : State) :
    changesOnly [.marker, .link] s (cancelAll r q s) := by
  induction q generalizing s with
  | nil => exact changesOnly_refl _ _
  | cons e q ih => exact changesOnly_trans (emit_marker _ _) (ih _)

theorem markerCancel_changes (h : Sender) (b : Byte) (s : State) :
    changesOnly [.marker, .link] s (markerCancel h b s) := by
  have hr : ∀ (u : State) (x : Result) (bs : List Byte), changesOnly [.marker, .link] u (u.reply h 0x2A x bs) :=
    fun u x bs => changesOnly_mono (reply_changes _ _ _ _ _) (by simp)
  have hc : ∀ (u : State) (r : Rail), changesOnly [.marker, .link] u (u.cancelEngine r) := by
    intro u r; unfold State.cancelEngine; split
    all_goals first
      | exact afterDashes_changes _ _ _ | exact enterIdle_changes _ _ | exact changesOnly_refl _ _
  unfold markerCancel; split
  · exact hr _ _ _
  · exact changesOnly_trans (changesOnly_trans (changesOnly_trans (setQueue_marker _ _ _)
      (cancelAll_changes _ _ _)) (hc _ _)) (hr _ _ _)

/-! ## Runs and resets -/

theorem warmReset_changes (s : State) (c : ResetCause) :
    changesOnly [.run, .seq, .lanes, .windows, .zones, .eval, .marker, .link] s (s.warmReset c) := by
  intro b; cases b <;> simp [Block.same, State.warmReset, State.warmValues]

theorem startRun_changes (h : Sender) (u : Unit) (s : State) :
    changesOnly [.odo, .run, .seq, .lanes, .windows, .zones, .eval, .link] s (startRun h u s) := by
  have hr : ∀ (t : State) (x : Result) (bs : List Byte),
      changesOnly [.odo, .run, .seq, .lanes, .windows, .zones, .eval, .link] t (t.reply h 0x01 x bs) :=
    fun t x bs => changesOnly_mono (reply_changes _ _ _ _ _) (by simp)
  have hv : changesOnly [.odo, .run, .seq, .lanes, .windows, .zones, .eval, .link] s s.startValues := by
    unfold State.startValues; dsimp only
    exact changesOnly_trans (changesOnly_trans (changesOnly_trans (changesOnly_trans (changesOnly_trans
      (changesOnly_trans (changesOnly_mono (startOdometry_spec s).2 (by simp))
      (changesOnly_mono (setRun_changes _ _) (by simp))) (changesOnly_mono (setWindows_changes _ _) (by simp)))
      (changesOnly_mono (setZones_changes _ _) (by simp))) (changesOnly_mono (setZones_changes _ _) (by simp)))
      (changesOnly_mono (setSeq_changes _ _) (by simp))) (changesOnly_mono (setEval_changes _ _) (by simp))
  unfold startRun; split
  · exact hr _ _ _
  · split
    · exact hr _ _ _
    · refine changesOnly_trans ?_ (hr _ _ _)
      unfold State.startRun; dsimp only
      exact changesOnly_trans (changesOnly_trans (changesOnly_trans (changesOnly_trans (changesOnly_trans hv
        (changesOnly_mono (event_changes _ _) (by simp)))
        (changesOnly_mono (judgeSuspension_changes _ _ _) (by simp)))
        (changesOnly_mono (startLane_lanes _ _).2.2 (by simp)))
        (changesOnly_mono (startLane_lanes _ _).2.2 (by simp)))
        (changesOnly_mono (settleKeepAlive_changes _) (by simp))

theorem changeRun_changes (s : State) (h : Sender) (x : RunState) :
    changesOnly [.run, .seq, .zones, .link] s (s.changeRun h x) :=
  changesOnly_trans (changesOnly_mono (setRun_changes _ _) (by simp))
    (changesOnly_mono (event_changes _ _) (by simp))

theorem judgeAndReply_changes (s : State) (x y) (h : Sender) (code : Byte) :
    changesOnly [.run, .seq, .zones, .link] s (((s.judgeSuspension x y).settleKeepAlive).replyRun h code) :=
  changesOnly_trans (changesOnly_trans (changesOnly_mono (judgeSuspension_changes _ _ _) (by simp))
    (changesOnly_mono (settleKeepAlive_changes _) (by simp))) (changesOnly_mono (reply_changes _ _ _ _ _) (by simp))

theorem markStopping_run (s : State) : changesOnly [.run, .seq, .zones, .link] s s.markStopping :=
  changesOnly_mono (markStopping_changes s) (by simp)

theorem pauseRun_changes (h : Sender) (u : Unit) (s : State) :
    changesOnly [.run, .seq, .zones, .link] s (pauseRun h u s) := by
  unfold pauseRun; split
  · exact changesOnly_trans (changesOnly_trans (markStopping_run _) (changeRun_changes _ _ _))
      (judgeAndReply_changes _ _ _ _ _)
  · exact changesOnly_mono (reply_changes _ _ _ _ _) (by simp)

theorem resumeRun_changes (h : Sender) (u : Unit) (s : State) :
    changesOnly [.run, .seq, .zones, .link] s (resumeRun h u s) := by
  unfold resumeRun; split
  · exact changesOnly_trans (changeRun_changes _ _ _) (judgeAndReply_changes _ _ _ _ _)
  · exact changesOnly_mono (reply_changes _ _ _ _ _) (by simp)

theorem enterDraining_changes (h : Sender) (s : State) :
    changesOnly [.run, .seq, .zones, .link] s (s.enterDraining h) :=
  changesOnly_trans (changesOnly_trans (changesOnly_trans (changesOnly_mono (setRun_changes _ _) (by simp))
    (markStopping_run _)) (changeRun_changes _ _ _)) (judgeAndReply_changes _ _ _ _ _)

theorem endRun_changes (h : Sender) (u : Unit) (s : State) :
    changesOnly [.run, .seq, .zones, .link, .pending] s (endRun h u s) := by
  have ht : changesOnly [.run, .seq, .zones, .link, .pending] s (s.endRunTaken h) :=
    changesOnly_trans (changesOnly_mono (enterDraining_changes h s) (by simp))
      (changesOnly_mono (judgeDrain_changes _) (by simp))
  unfold endRun; split
  · exact ht
  · exact ht
  · exact changesOnly_mono (reply_changes _ _ _ _ _) (by simp)

/-! ## Configuration, zones, link and reads -/

theorem setParam_changes (h : Sender) (a : SetParamArgs) (s : State) :
    changesOnly [.params, .run, .odo, .marker, .link] s (setParam h a s) := by
  have hr : ∀ (t : State) (x : Result) (bs : List Byte),
      changesOnly [.params, .run, .odo, .marker, .link] t (t.reply h 0x10 x bs) :=
    fun t x bs => changesOnly_mono (reply_changes _ _ _ _ _) (by simp)
  have hp : ∀ (t : State) (n : Nat), changesOnly [.params, .run, .odo, .marker, .link] t (t.paramWritten n) := by
    intro t n; unfold State.paramWritten; split
    · unfold State.modeWritten; split
      · exact changesOnly_trans (changesOnly_mono (clearSlip_changes _) (by simp))
          (changesOnly_mono (returnSource_changes _ _) (by simp))
      · exact changesOnly_mono (clearSlip_changes _) (by simp)
    · exact changesOnly_mono (dueTest_changes _ _) (by simp)
    · exact changesOnly_mono (dueTest_changes _ _) (by simp)
    · exact changesOnly_refl _ _
  unfold setParam; split
  · exact hr _ _ _
  · refine changesOnly_trans ?_ (hr _ _ _)
    refine changesOnly_trans ?_ (hp _ _)
    intro b; cases b <;> simp [Block.same, State.bumpGeneration]

theorem getParam_changes (h : Sender) (b : Byte) (s : State) : changesOnly [.link] s (getParam h b s) := by
  unfold getParam; split <;> exact reply_changes _ _ _ _ _

theorem writeProbe_changes (h : Sender) (a : WriteProbeArgs) (s : State) :
    changesOnly [.probes, .run, .link] s (writeProbe h a s) := by
  have hr : ∀ x : Result, changesOnly [.probes, .run, .link] s (s.refuse h 0x12 x) := fun x =>
    changesOnly_mono (reply_changes _ _ _ _ _) (by simp)
  unfold writeProbe; split
  · dsimp only; split
    · exact hr _
    · split
      · exact hr _
      · intro b; cases b <;> simp [Block.same, State.takeProbe, State.bumpGeneration]
  · exact hr _

theorem readProbe_changes (h : Sender) (b : Byte) (s : State) : changesOnly [.link] s (readProbe h b s) := by
  unfold readProbe; split <;> exact reply_changes _ _ _ _ _

theorem writeStep_changes (h : Sender) (a : WriteStepArgs) (s : State) :
    changesOnly [.seq, .run, .link] s (writeStep h a s) := by
  have hr : ∀ x : Result, changesOnly [.seq, .run, .link] s (s.refuse h 0x14 x) := fun x =>
    changesOnly_mono (reply_changes _ _ _ _ _) (by simp)
  unfold writeStep; split
  · dsimp only; split
    · exact hr _
    · intro b; cases b <;> simp [Block.same, State.takeStep, State.bumpGeneration]
  · exact hr _

theorem readStep_changes (h : Sender) (b : Byte) (s : State) : changesOnly [.link] s (readStep h b s) := by
  unfold readStep; split <;> exact reply_changes _ _ _ _ _

theorem writePattern_changes (h : Sender) (a : WritePatternArgs) (s : State) :
    changesOnly [.eval, .run, .link] s (writePattern h a s) := by
  unfold writePattern; repeat' split
  all_goals intro b; cases b <;> simp [Block.same, State.takePattern, State.bumpGeneration, State.refuse]

theorem readPattern_changes (h : Sender) (b : Byte) (s : State) : changesOnly [.link] s (readPattern h b s) := by
  unfold readPattern; split <;> exact reply_changes _ _ _ _ _

theorem writeSpray_changes (h : Sender) (a : WriteSprayArgs) (s : State) :
    changesOnly [.marker, .run, .link] s (writeSpray h a s) := by
  unfold writeSpray; repeat' split
  all_goals intro b; cases b <;> simp [Block.same, State.takeSpray, State.bumpGeneration, State.refuse]

theorem readSpray_changes (h : Sender) (b : Byte) (s : State) : changesOnly [.link] s (readSpray h b s) := by
  unfold readSpray; split <;> exact reply_changes _ _ _ _ _

theorem addZone_changes (h : Sender) (a : AddZoneArgs) (s : State) :
    changesOnly [.zones, .link] s (addZone h a s) := by
  unfold addZone; dsimp only; repeat' split
  all_goals intro b; cases b <;> simp [Block.same, State.refuse]

theorem cancelZone_changes (h : Sender) (b : Byte) (s : State) :
    changesOnly [.zones, .link] s (cancelZone h b s) := by
  unfold cancelZone; repeat' split
  all_goals intro b; cases b <;> simp [Block.same, State.refuse]

theorem listZones_changes (h : Sender) (u : Unit) (s : State) :
    changesOnly [.link, .freeCtr] s (listZones h u s) := by
  intro b; cases b <;> simp [Block.same, listZones]

theorem rebase_changes (h : Sender) (d : Word32) (s : State) :
    changesOnly [.odo, .zones, .marker, .link] s (rebase h d s) := by
  have hr : ∀ (t : State) (x : Result) (bs : List Byte),
      changesOnly [.odo, .zones, .marker, .link] t (t.reply h 0x30 x bs) :=
    fun t x bs => changesOnly_mono (reply_changes _ _ _ _ _) (by simp)
  unfold rebase; split
  · exact hr _ _ _
  · split
    · refine changesOnly_trans (changesOnly_trans ?_ (changesOnly_mono (followLimit_changes _) (by simp)))
        (hr _ _ _)
      intro b; cases b <;> simp [Block.same, State.moveBy]
    · exact hr _ _ _

theorem readCell_changes (h : Sender) (a : ReadCellArgs) (s : State) : changesOnly [.link] s (readCell h a s) := by
  unfold readCell; dsimp only; repeat' split
  all_goals exact reply_changes _ _ _ _ _

theorem readStatus_changes (h : Sender) (b : Byte) (s : State) :
    changesOnly [.link, .freeCtr] s (readStatus h b s) := by
  unfold readStatus; split
  all_goals intro b; cases b <;> simp [Block.same, State.refuse]

theorem partition_changes (h : Sender) (a : PartitionArgs) (s : State) :
    changesOnly [.link] s (partition h a s) := by
  unfold partition; repeat' split
  all_goals intro b; cases b <;> simp [Block.same, State.refuse]

theorem subscribe_changes (h : Sender) (a : SubscribeArgs) (s : State) :
    changesOnly [.link] s (subscribe h a s) := by
  unfold subscribe; split
  all_goals intro b; cases b <;> simp [Block.same, State.refuse, State.setReportLane]

theorem flushLane_changes (h : Sender) (u : Unit) (s : State) : changesOnly [.link] s (flushLane h u s) := by
  intro b; cases b <;> simp [Block.same, flushLane, State.setReportLane]

/-! ## Every command -/

/-- The blocks a command may change. -/
def touches : Instr → List Block
  | .resetNAsserted => [.held, .marker]
  | .resetRelease _ => [.held, .odo, .run, .seq, .lanes, .probes, .windows, .zones, .eval, .marker, .link,
      .params, .pins, .samples]
  | .encoderTick _ _ => [.odo, .seq, .lanes, .windows, .zones, .eval, .marker, .link, .pins]
  | .illegalTransition _ => [.odo, .pins]
  | .standstillSet => [.odo, .seq, .marker, .link]
  | .speedIntervalEnd => [.odo, .marker, .link]
  | .slipWindowEnd => [.odo, .link]
  | .liftSample _ => [.odo, .run, .seq, .zones, .link, .pins]
  | .keepaliveTrigger => [.seq, .lanes]
  | .stepTimerExpiry => [.seq, .lanes, .link]
  | .firingRecordTimeout _ => [.seq, .lanes, .link, .pending]
  | .setupMessageSent _ | .fireMessageSent _ | .corruptMessage _ => [.lanes]
  | .ready _ _ | .setupTimeout _ | .retry _ => [.lanes, .link]
  | .report _ _ _ _ => [.seq, .lanes, .windows, .link, .pending]
  | .drain => [.run, .lanes, .windows, .zones, .eval, .marker, .link]
  | .headTaken _ | .holdEnd _ | .purgeEnd _ | .recoverEnd _ => [.marker, .link]
  | .pullinEnd _ | .holdPulsePeriod _ | .gapEnd _ => [.marker]
  | .linkFrame => [.link, .freeCtr]
  | .commandFieldEnd _ => [.link, .pending]
  | .reportLaneByte _ | .commandFrameReceived _ | .delimiter | .abort | .oversize
  | .unknownCommand _ _ => [.link]
  | .linkBreak | .warmReset _ _ => [.run, .seq, .lanes, .windows, .zones, .eval, .marker, .link]
  | .startRun _ _ => [.odo, .run, .seq, .lanes, .windows, .zones, .eval, .link]
  | .pauseRun _ _ | .resumeRun _ _ => [.run, .seq, .zones, .link]
  | .endRun _ _ => [.run, .seq, .zones, .link, .pending]
  | .setParam _ _ => [.params, .run, .odo, .marker, .link]
  | .writeProbe _ _ => [.probes, .run, .link]
  | .writeStep _ _ => [.seq, .run, .link]
  | .writePattern _ _ => [.eval, .run, .link]
  | .writeSpray _ _ => [.marker, .run, .link]
  | .getParam _ _ | .readProbe _ _ | .readStep _ _ | .readPattern _ _ | .readSpray _ _ | .readCell _ _
  | .subscribe _ _ | .flushLane _ _ | .partition _ _ => [.link]
  | .addZone _ _ | .cancelZone _ _ => [.zones, .link]
  | .listZones _ _ | .readStatus _ _ => [.link, .freeCtr]
  | .markerResumeRetry _ _ | .markerResumeSkip _ _ | .markerCancel _ _ => [.marker, .link]
  | .markerTest _ _ => [.marker, .link, .freeCtr]
  | .rebase _ _ => [.odo, .zones, .marker, .link]

/-- Every command changes only the blocks named for it. -/
theorem exec_changes (i : Instr) (s t : State) (h : exec i s = .next t) : changesOnly (touches i) s t := by
  have go : ∀ u, exec i s = .next u → changesOnly (touches i) s u → changesOnly (touches i) s t := by
    intro u hu hc; rw [h] at hu; cases hu; exact hc
  cases i with
  | resetNAsserted => refine go _ rfl ?_; intro b; cases b <;> simp [Block.same, touches, resetNAsserted]
  | resetRelease l => refine go _ rfl ?_; intro b; cases b <;> simp [Block.same, touches, State.cold]
  | encoderTick e d => exact go _ rfl (unlessHeld_changes (encoderTick_changes e d s))
  | illegalTransition e => exact go _ rfl (unlessHeld_changes (illegalTransition_changes e s))
  | headTaken r => exact go _ rfl (unlessHeld_changes (headTaken_changes r s))
  | standstillSet => exact go _ rfl (unlessHeld_changes (standstillSet_changes s))
  | speedIntervalEnd => exact go _ rfl (unlessHeld_changes (speedIntervalEnd_changes s))
  | slipWindowEnd => exact go _ rfl (unlessHeld_changes (slipWindowEnd_changes s))
  | liftSample v => exact go _ rfl (unlessHeld_changes (liftSample_changes v s))
  | keepaliveTrigger => exact go _ rfl (unlessHeld_changes (keepaliveTrigger_changes s))
  | stepTimerExpiry => exact go _ rfl (unlessHeld_changes (stepTimerExpiry_changes s))
  | firingRecordTimeout i => exact go _ rfl (unlessHeld_changes (firingRecordTimeout_changes i s))
  | setupMessageSent r => exact go _ rfl (unlessHeld_changes (setupMessageSent_changes r s))
  | fireMessageSent r => exact go _ rfl (unlessHeld_changes (fireMessageSent_changes r s))
  | ready r n => exact go _ rfl (unlessHeld_changes (readyReceived_changes r n s))
  | report r a p xs => exact go _ rfl (unlessHeld_changes (report_changes r a p xs s))
  | corruptMessage r => exact go _ rfl (unlessHeld_changes (setLane_changes _ _ _))
  | setupTimeout r => exact go _ rfl (unlessHeld_changes (setupTimeout_changes r s))
  | retry r => exact go _ rfl (unlessHeld_changes (retry_changes r s))
  | drain => exact go _ rfl (unlessHeld_changes (drain_changes s))
  | pullinEnd r => exact go _ rfl (unlessHeld_changes (pullinEnd_changes r s))
  | holdPulsePeriod r => exact go _ rfl (unlessHeld_changes (holdPulsePeriod_changes r s))
  | holdEnd r => exact go _ rfl (unlessHeld_changes (holdEnd_changes r s))
  | gapEnd r => exact go _ rfl (unlessHeld_changes (gapEnd_changes r s))
  | purgeEnd r => exact go _ rfl (unlessHeld_changes (purgeEnd_changes r s))
  | recoverEnd r => exact go _ rfl (unlessHeld_changes (recoverEnd_changes r s))
  | linkFrame =>
    refine go _ rfl (unlessHeld_changes ?_); intro b; cases b <;> simp [Block.same, touches, linkFrame]
  | reportLaneByte n => exact go _ rfl (unlessHeld_changes (setLink_changes _ _))
  | commandFrameReceived c =>
    refine go _ rfl (unlessHeld_changes ?_); unfold commandFrameReceived; split
    · exact setLink_changes _ _
    · exact changesOnly_refl _ _
  | delimiter =>
    refine go _ rfl (unlessHeld_changes ?_); unfold delimiter; split
    · exact setLink_changes _ _
    · exact changesOnly_refl _ _
  | abort =>
    refine go _ rfl (unlessHeld_changes ?_); unfold abort; split
    · exact setLink_changes _ _
    · exact changesOnly_refl _ _
  | oversize =>
    refine go _ rfl (unlessHeld_changes ?_); unfold oversize; split
    · exact setLink_changes _ _
    · exact changesOnly_refl _ _
  | commandFieldEnd f =>
    refine go _ rfl (unlessHeld_changes ?_); unfold commandFieldEnd; dsimp only; split
    · exact changesOnly_trans (changesOnly_mono (setLink_changes _ _) (by simp [touches]))
        (changesOnly_mono (putFirst_changes _ _) (by simp [touches]))
    · exact changesOnly_mono (setLink_changes _ _) (by simp [touches])
  | linkBreak =>
    refine go _ rfl (unlessHeld_changes ?_); unfold linkBreak; split
    · exact changesOnly_refl _ _
    · exact warmReset_changes _ _
  | unknownCommand m c =>
    exact go _ rfl (unlessHeld_changes (changesOnly_trans (take_changes _ _ _) (reply_changes _ _ _ _ _)))
  | startRun m p => exact go _ rfl (command_changes (by simp [touches]) (startRun_changes m))
  | pauseRun m p => exact go _ rfl (command_changes (by simp [touches]) (pauseRun_changes m))
  | resumeRun m p => exact go _ rfl (command_changes (by simp [touches]) (resumeRun_changes m))
  | endRun m p => exact go _ rfl (command_changes (by simp [touches]) (endRun_changes m))
  | warmReset m p =>
    exact go _ rfl (command_changes (by simp [touches]) fun _ t => warmReset_changes t _)
  | setParam m p => exact go _ rfl (command_changes (by simp [touches]) (setParam_changes m))
  | getParam m p => exact go _ rfl (command_changes (by simp [touches]) (getParam_changes m))
  | writeProbe m p => exact go _ rfl (command_changes (by simp [touches]) (writeProbe_changes m))
  | readProbe m p => exact go _ rfl (command_changes (by simp [touches]) (readProbe_changes m))
  | writeStep m p => exact go _ rfl (command_changes (by simp [touches]) (writeStep_changes m))
  | readStep m p => exact go _ rfl (command_changes (by simp [touches]) (readStep_changes m))
  | writePattern m p => exact go _ rfl (command_changes (by simp [touches]) (writePattern_changes m))
  | readPattern m p => exact go _ rfl (command_changes (by simp [touches]) (readPattern_changes m))
  | writeSpray m p => exact go _ rfl (command_changes (by simp [touches]) (writeSpray_changes m))
  | readSpray m p => exact go _ rfl (command_changes (by simp [touches]) (readSpray_changes m))
  | addZone m p => exact go _ rfl (command_changes (by simp [touches]) (addZone_changes m))
  | cancelZone m p => exact go _ rfl (command_changes (by simp [touches]) (cancelZone_changes m))
  | listZones m p => exact go _ rfl (command_changes (by simp [touches]) (listZones_changes m))
  | markerResumeRetry m p => exact go _ rfl (command_changes (by simp [touches]) (markerResume_changes m))
  | markerResumeSkip m p => exact go _ rfl (command_changes (by simp [touches]) (markerResume_changes m))
  | markerTest m p => exact go _ rfl (command_changes (by simp [touches]) (markerTest_changes m))
  | markerCancel m p => exact go _ rfl (command_changes (by simp [touches]) (markerCancel_changes m))
  | rebase m p => exact go _ rfl (command_changes (by simp [touches]) (rebase_changes m))
  | subscribe m p => exact go _ rfl (command_changes (by simp [touches]) (subscribe_changes m))
  | flushLane m p => exact go _ rfl (command_changes (by simp [touches]) (flushLane_changes m))
  | partition m p => exact go _ rfl (command_changes (by simp [touches]) (partition_changes m))
  | readCell m p => exact go _ rfl (command_changes (by simp [touches]) (readCell_changes m))
  | readStatus m p => exact go _ rfl (command_changes (by simp [touches]) (readStatus_changes m))

end Sys2Proof.Machine
end

