-- ==== Sys2Proof/Laws/Link.lean ====
section
/-! SUPPORT. The lengths of the wire fields, and what a record does to a report lane: the lane keeps its
    pages, its
subscription and its stage, and never holds more than its size (R173, R176). -/
namespace Sys2Proof.Machine

theorem u8_length (n : Nat) : (u8 n).length = 1 := rfl
theorem u16_length (n : Nat) : (u16 n).length = 2 := rfl
theorem u32_length (n : Nat) : (u32 n).length = 4 := rfl
theorem i16_length (x : Int) : (i16 x).length = 2 := rfl
theorem i32_length (x : Int) : (i32 x).length = 4 := rfl
theorem flag_length (b : Bool) : (flag b).length = 1 := rfl

theorem reply_link (s : State) (h : Sender) (c : Byte) (r : Result) (d : List Byte) :
    (s.reply h c r d).link = s.link.sendTo h.node s.odo.cp (.reply h.tag c r d) := rfl

/-- A record that reaches a lane leaves its pages and its stage (R173). -/
theorem accept_kept (l : ReportLane) (cp : Int) (r : Record) :
    (l.accept cp r).pages = l.pages ∧ (l.accept cp r).stage = l.stage := by
  unfold ReportLane.accept ReportLane.push
  dsimp only
  repeat' split
  all_goals exact ⟨rfl, rfl⟩

theorem sendTo_kept (l : LinkState) (n : Node) (cp : Int) (r : Record) (m : Node) :
    ((l.sendTo n cp r).lanes.get m).pages = (l.lanes.get m).pages
    ∧ ((l.sendTo n cp r).lanes.get m).stage = (l.lanes.get m).stage := by
  unfold LinkState.sendTo
  by_cases h : m = n
  · subst h; simp only [PerNode.get_set_same]; exact accept_kept _ _ _
  · rw [PerNode.get_set_ne _ h]; exact ⟨rfl, rfl⟩

theorem rotating_length (s : State) (n : Nat) : (s.rotating n).length = 4 := by
  unfold State.rotating
  split <;> simp [u8_length, u16_length, i32_length, Lane.item, Engine.item]

/-- A LOSS record takes 14 bytes, within the 16-byte reserve (R173, R174). -/
theorem lossRecord_size (l : ReportLane) : l.lossRecord.size = 14 := by
  simp [ReportLane.lossRecord, Record.size, Record.body, u16_length, i32_length]

/-- A HIT record takes 18 bytes (11.6.4). -/
theorem hit_size (h : HitRecord) : (Record.hit h).size = 18 := by
  simp [Record.size, Record.body, HitRecord.body, u8_length, u16_length, i32_length]

/-- A record that reaches a lane never takes it beyond its size (R173). -/
theorem accept_fits {l : ReportLane} (hf : l.fill ≤ l.size) (cp : Int) (r : Record) :
    (l.accept cp r).fill ≤ (l.accept cp r).size := by
  have hz : l.size = l.pages * 512 := rfl
  have happ : ∀ (m : ReportLane) (xs : List Record), m.fill + (xs.map Record.size).sum =
      ((m.records ++ xs).map Record.size).sum := by intro m xs; simp [ReportLane.fill]
  unfold ReportLane.accept
  split
  · rename_i ha
    have hr : l.fill + r.size + 14 ≤ l.size := by
      unfold ReportLane.admits at ha
      split at ha
      · rw [decide_eq_true_iff] at ha
        rw [hit_size]
        omega
      · rw [decide_eq_true_iff] at ha
        omega
    unfold ReportLane.push
    dsimp only
    split
    · have h1 := happ l [l.lossRecord, r]
      have h2 : (l.makeLoss.records ++ [r]) = l.records ++ [l.lossRecord, r] := by simp [ReportLane.makeLoss]
      show ((l.makeLoss.records ++ [r]).map Record.size).sum ≤ l.pages * 512
      rw [h2, ← h1]
      simp only [List.map_cons, List.map_nil, List.sum_cons, List.sum_nil, lossRecord_size]
      omega
    · have h1 := happ l [r]
      show ((l.records ++ [r]).map Record.size).sum ≤ l.pages * 512
      rw [← h1]
      simp only [List.map_cons, List.map_nil, List.sum_cons, List.sum_nil]
      omega
  · split <;> exact hf

end Sys2Proof.Machine
end

