-- ==== Sys2Proof/Laws/Tables.lean ====
section
/-! SUPPORT. The judging of carried fields: what a clamped value keeps, and which probe entries (R73–R75) and pattern
entries (R125–R127) are taken, field by field, or refused. -/
namespace Sys2Proof.Machine

/-- A clamped value lies in its range (R180). -/
theorem nearest_holds (id : Nat) (spec : ParamSpec) (h : paramSpec id = some spec)
    (hc : spec.clamped = true) (x : Int) : spec.range.holds (spec.range.nearest x) = true := by
  unfold paramSpec at h
  split at h <;> first | (simp only [Option.some.injEq] at h; subst h) | simp at h
  all_goals first | simp [stoppedRefused, liveRefused] at hc | skip
  all_goals simp [ParamRange.holds, ParamRange.nearest, liveClamped, clampInt]

/-- An id beyond the table reads as 0. -/
theorem read_big (q : Parameters) (n : Nat) (h : 37 < n) : q.read n = 0 := by
  unfold Parameters.read; split <;> omega

/-- A probe entry takes 40 bytes (11.3). -/
theorem probe_bytes (p : Probe) : p.bytes.length = 40 := by
  have hg : ∀ g : Gate, g.bytes.length = 7 := by intro g; rfl
  simp [Probe.bytes, u8_length, u16_length, i16_length, flag_length, fourGates, hg]

/-! ## Probe entries (R73–R75) -/

theorem gateRole_some (b : Byte) (x : GateRole) : GateRole.ofByte b = some x ↔ b.toNat = x.code := by
  unfold GateRole.ofByte
  cases x <;> split <;> simp_all [GateRole.code]

theorem gateRole_none (b : Byte) : GateRole.ofByte b = none ↔ ¬ b.toNat ≤ 3 := by
  unfold GateRole.ofByte
  split <;> simp_all; omega

/-- The ranges of a gate record (R74, R75 step 3). -/
def GateArgs.inRange (x : GateArgs) : Prop :=
  x.role.toNat ≤ 3 ∧ 1 ≤ x.windowWidth.toNat ∧ x.windowStart.toNat + x.windowWidth.toNat - 1 ≤ 65535
    ∧ x.dropBand.toNat ≤ 7

/-- A gate record holds the carried fields. -/
def GateArgs.heldBy (x : GateArgs) (g : Gate) : Prop :=
  g.role.code = x.role.toNat ∧ g.windowStart = x.windowStart.toNat ∧ g.windowWidth = x.windowWidth.toNat
    ∧ g.threshold = x.threshold.toNat ∧ g.dropBand.val = x.dropBand.toNat

/-- A gate record in its ranges is taken field by field (R74, R75). -/
theorem gate_some (x : GateArgs) (h : GateArgs.inRange x) :
    ∃ g, GateArgs.gate x = some g ∧ GateArgs.heldBy x g := by
  obtain ⟨h1, h2, h3, h4⟩ := h
  cases hr : GateRole.ofByte x.role with
  | none => exact absurd h1 ((gateRole_none _).1 hr)
  | some role =>
    have hw : ¬ (x.windowWidth = 0 ∨ x.windowStart.toNat + x.windowWidth.toNat - 1 > 65535) := by
      rintro (h | h)
      · rw [h] at h2; simp at h2
      · omega
    unfold GateArgs.gate
    rw [hr]; simp only
    rw [if_neg hw, dif_pos (show x.dropBand.toNat < 8 by omega)]
    exact ⟨_, rfl, ((gateRole_some _ _).1 hr).symm, rfl, rfl, rfl, rfl⟩

/-- A gate record that is taken is in its ranges (R75 step 3). -/
theorem gate_inRange (x : GateArgs) (g : Gate) (h : GateArgs.gate x = some g) : GateArgs.inRange x := by
  unfold GateArgs.gate at h
  cases hr : GateRole.ofByte x.role with
  | none => rw [hr] at h; simp at h
  | some role =>
    rw [hr] at h; simp only at h
    have h3 : x.role.toNat ≤ 3 := by by_contra hx; rw [(gateRole_none _).2 hx] at hr; simp at hr
    split at h
    · simp at h
    · rename_i hw
      obtain ⟨h4, h5⟩ := not_or.1 hw
      have : x.windowWidth.toNat ≠ 0 := fun hx => h4 (BitVec.eq_of_toNat_eq hx)
      split at h
      · exact ⟨h3, by omega, by omega, by omega⟩
      · simp at h

/-- The ranges of a probe entry (R73–R75). -/
def WriteProbeArgs.inRange (a : WriteProbeArgs) : Prop :=
  a.group.toNat ≤ 7 ∧ -4096 ≤ a.offset.toInt ∧ a.offset.toInt ≤ 4095
    ∧ -1024 ≤ a.shift.toInt ∧ a.shift.toInt ≤ 1023 ∧ ∀ i : Fin 4, GateArgs.inRange a.gates[i]

/-- A probe entry out of its ranges is refused (R75 step 3). -/
theorem probeEntry_none (a : WriteProbeArgs) (h : ¬ WriteProbeArgs.inRange a) : WriteProbeArgs.entry a = none := by
  unfold WriteProbeArgs.entry
  split
  · rename_i g0 g1 g2 g3 e0 e1 e2 e3
    split
    · split
      · rename_i hg ho
        refine absurd ⟨by omega, ho.1, ho.2.1, ho.2.2.1, ho.2.2.2, fun i => ?_⟩ h
        match i with
        | 0 => exact gate_inRange _ _ e0
        | 1 => exact gate_inRange _ _ e1
        | 2 => exact gate_inRange _ _ e2
        | 3 => exact gate_inRange _ _ e3
      · rfl
    · rfl
  · rfl

/-- A probe entry in its ranges is taken field by field, D at 4095 at most (R73–R75). -/
theorem probeEntry_some (a : WriteProbeArgs) (h : WriteProbeArgs.inRange a) :
    ∃ p, WriteProbeArgs.entry a = some p ∧ p.enabled = a.enabled.getLsbD 0 ∧ p.group.val = a.group.toNat
      ∧ p.offset = a.offset.toInt ∧ p.shift = a.shift.toInt ∧ p.delay = min a.delay.toNat 4095
      ∧ p.lead = a.lead.toInt ∧ p.depthFactor = a.depthFactor.toNat
      ∧ ∀ i : Fin 4, GateArgs.heldBy a.gates[i] p.gates[i] := by
  obtain ⟨h1, h2, h3, h4, h5, h6⟩ := h
  obtain ⟨g0, e0, k0⟩ := gate_some _ (h6 0)
  obtain ⟨g1, e1, k1⟩ := gate_some _ (h6 1)
  obtain ⟨g2, e2, k2⟩ := gate_some _ (h6 2)
  obtain ⟨g3, e3, k3⟩ := gate_some _ (h6 3)
  unfold WriteProbeArgs.entry
  rw [e0, e1, e2, e3]; simp only
  rw [dif_pos (show a.group.toNat < 8 by omega), if_pos ⟨h2, h3, h4, h5⟩]
  refine ⟨_, rfl, rfl, rfl, rfl, rfl, rfl, rfl, rfl, fun i => ?_⟩
  match i with
  | 0 => exact k0
  | 1 => exact k1
  | 2 => exact k2
  | 3 => exact k3

/-- Which stopped fields a WRITE_PROBE outside STOPPED must carry as they are held (R34, R75 step 2). -/
theorem sameStopped_iff (a : WriteProbeArgs) (held : Probe) : WriteProbeArgs.sameStopped a held = true ↔
    a.enabled.getLsbD 0 = held.enabled ∧ a.group.toNat = held.group.val ∧ a.offset.toInt = held.offset
      ∧ a.shift.toInt = held.shift
      ∧ ∀ i : Fin 4, (a.gates[i]).role.toNat = (held.gates[i]).role.code
        ∧ (a.gates[i]).windowStart.toNat = (held.gates[i]).windowStart
        ∧ (a.gates[i]).windowWidth.toNat = (held.gates[i]).windowWidth := by
  have hg : (fourGates.all fun i => GateArgs.sameStopped a.gates[i] held.gates[i]) = true ↔
      ∀ i : Fin 4, (a.gates[i]).role.toNat = (held.gates[i]).role.code
        ∧ (a.gates[i]).windowStart.toNat = (held.gates[i]).windowStart
        ∧ (a.gates[i]).windowWidth.toNat = (held.gates[i]).windowWidth := by
    rw [List.all_eq_true]
    constructor
    · intro h i
      simpa [GateArgs.sameStopped, and_assoc] using h i (by fin_cases i <;> simp [fourGates])
    · intro h i _
      simpa [GateArgs.sameStopped, and_assoc] using h i
  unfold WriteProbeArgs.sameStopped
  simp only [Bool.and_eq_true, beq_iff_eq, decide_eq_true_eq, and_assoc, hg]

/-! ## Pattern entries (R125–R127) -/

/-- The ranges of a term (R126, R127 step 3). -/
def TermArgs.inRange (x : TermArgs) : Prop :=
  x.group.toNat ≤ 7 ∧ x.kind.toNat ≤ 1 ∧ 1 ≤ x.minCount.toNat ∧ x.minCount.toNat ≤ 15
    ∧ (x.kind = 0 → x.bandMask ≠ 0)

/-- A term holds the carried fields. -/
def TermArgs.heldBy (x : TermArgs) (y : Term) : Prop :=
  y.group.val = x.group.toNat ∧ y.kind.code = x.kind.toNat ∧ y.bands = x.bandMask
    ∧ y.minCount = x.minCount.toNat ∧ y.minAmplitude = x.minAmplitude.toNat

theorem hitKind_some (b : Byte) (k : HitKind) (h : HitKind.ofByte b = some k) :
    b.toNat ≤ 1 ∧ k.code = b.toNat ∧ (k = .flaw ↔ b = 0) := by
  have h0 : b = 0 ↔ b.toNat = 0 := by rw [BitVec.toNat_eq]; simp
  rw [h0]
  unfold HitKind.ofByte at h
  split at h <;> simp at h <;> subst h <;> simp_all [HitKind.code]

/-- A term in its ranges is taken field by field (R126, R127). -/
theorem term_some (x : TermArgs) (h : TermArgs.inRange x) :
    ∃ y, TermArgs.term x = some y ∧ TermArgs.heldBy x y := by
  obtain ⟨h1, h2, h3, h4, h5⟩ := h
  cases hr : HitKind.ofByte x.kind with
  | none =>
    have h6 : x.kind.toNat = 0 ∨ x.kind.toNat = 1 := by omega
    rcases h6 with h6 | h6 <;> simp [HitKind.ofByte, h6] at hr
  | some kind =>
    obtain ⟨-, hc, hf⟩ := hitKind_some _ _ hr
    unfold TermArgs.term
    rw [hr]; simp only
    rw [dif_pos (show x.group.toNat < 8 by omega), if_neg]
    · exact ⟨_, rfl, rfl, hc, rfl, rfl, rfl⟩
    · rintro (h | h | h)
      · rw [h] at h3; simp at h3
      · omega
      · exact h5 (hf.1 h.1) h.2

/-- A term that is taken is in its ranges (R127 step 3). -/
theorem term_inRange (x : TermArgs) (y : Term) (h : TermArgs.term x = some y) : TermArgs.inRange x := by
  unfold TermArgs.term at h
  cases hr : HitKind.ofByte x.kind with
  | none => rw [hr] at h; simp at h
  | some kind =>
    obtain ⟨h1, -, hf⟩ := hitKind_some _ _ hr
    rw [hr] at h; simp only at h
    split at h
    · split at h
      · simp at h
      · rename_i hb
        simp only [not_or] at hb
        have : x.minCount.toNat ≠ 0 := fun hx => hb.1 (BitVec.eq_of_toNat_eq hx)
        exact ⟨by omega, h1, by omega, by omega, fun h2 h3 => hb.2.2 ⟨hf.2 h2, h3⟩⟩
    · simp at h

theorem termsOf_length (ts : List TermArgs) (xs : List Sys2Proof.Machine.Term) (h :
    termsOf ts = some xs) : xs.length = ts.length := by
  induction ts generalizing xs with
  | nil => simp [termsOf] at h; subst h; rfl
  | cons t ts ih =>
    unfold termsOf at h
    split at h
    · simp at h; subst h; simp [ih _ ‹_›]
    · simp at h

theorem termsOf_cons (x : TermArgs) (xs : List TermArgs) : termsOf (x :: xs) =
    match TermArgs.term x, termsOf xs with
    | some y, some ys => some (y :: ys)
    | _, _ => none := rfl

/-- Terms in their ranges are taken one by one. -/
theorem termsOf_some (xs : List TermArgs) (h : ∀ x : TermArgs, x ∈ xs → TermArgs.inRange x) :
    ∃ ys, termsOf xs = some ys ∧ ∀ (i : Nat) (x : TermArgs) (y : Term), xs[i]? = some x → ys[i]? = some y →
      TermArgs.heldBy x y := by
  induction xs with
  | nil => exact ⟨[], rfl, fun i x y hx => by simp at hx⟩
  | cons x xs ih =>
    obtain ⟨y, e, k⟩ := term_some x (h x (by simp))
    obtain ⟨ys, es, ks⟩ := ih fun z hz => h z (List.mem_cons_of_mem _ hz)
    refine ⟨y :: ys, by rw [termsOf_cons, e, es], fun i u v hu hv => ?_⟩
    cases i with
    | zero => simp at hu hv; subst hu hv; exact k
    | succ i => simp at hu hv; exact ks i u v hu hv

/-- Terms that are taken are in their ranges. -/
theorem termsOf_inRange (xs : List TermArgs) (ys : List Term) (h : termsOf xs = some ys) :
    ∀ x : TermArgs, x ∈ xs → TermArgs.inRange x := by
  induction xs generalizing ys with
  | nil => simp
  | cons x xs ih =>
    rw [termsOf_cons] at h
    split at h
    · rename_i e1 e2
      intro z hz
      rcases List.mem_cons.1 hz with rfl | hz
      · exact term_inRange _ _ e1
      · exact ih _ e2 z hz
    · simp at h

/-- The ranges of a pattern entry (R125–R127). -/
def WritePatternArgs.inRange (a : WritePatternArgs) : Prop :=
  1 ≤ a.terms.length ∧ a.terms.length ≤ 4 ∧ a.spread.toNat ≤ 3 ∧ 1 ≤ a.minRun.toNat
    ∧ a.minRun.toNat ≤ 64 ∧ a.cls.toNat ≤ 15 ∧ a.spray.toNat ≤ 7
    ∧ ∀ x : TermArgs, x ∈ a.terms → TermArgs.inRange x

/-- The spray pattern a pattern names: 0 for none, or 1–7 (R125). -/
theorem sprayOf_spec (b : Byte) :
    (b = 0 → sprayOf b = none) ∧ ∀ k : Fin 7, b.toNat = k.val + 1 → sprayOf b = some k := by
  refine ⟨by rintro rfl; rfl, fun k hk => ?_⟩
  unfold sprayOf; rw [dif_pos (by omega)]; simp [hk]

/-- A pattern entry in its ranges is taken field by field (R125–R127). -/
theorem patternEntry_some (a : WritePatternArgs) (h : WritePatternArgs.inRange a) :
    ∃ p, WritePatternArgs.entry a = some p ∧ p.enabled = a.flags.getLsbD 0 ∧ p.urgent = a.flags.getLsbD 1
      ∧ p.rails = a.railMask.truncate 2 ∧ p.spread = a.spread.toNat ∧ p.minRun = a.minRun.toNat
      ∧ p.cls.val = a.cls.toNat ∧ p.spray = sprayOf a.spray ∧ p.terms.length = a.terms.length
      ∧ ∀ (i : Nat) (x : TermArgs) (y : Term), a.terms[i]? = some x → p.terms[i]? = some y →
          TermArgs.heldBy x y := by
  obtain ⟨h1, h2, h3, h4, h5, h6, h7, h8⟩ := h
  obtain ⟨ys, e, k⟩ := termsOf_some _ h8
  have hl := termsOf_length _ _ e
  have hm : a.minRun ≠ 0 := fun hx => by rw [hx] at h4; simp at h4
  unfold WritePatternArgs.entry
  rw [e]; simp only
  rw [dif_pos (show a.cls.toNat < 16 by omega), if_neg]
  · exact ⟨_, rfl, rfl, rfl, rfl, rfl, rfl, rfl, rfl, hl, k⟩
  · rintro (hx | hx | hx | hx | hx | hx)
    · omega
    · omega
    · omega
    · exact hm hx
    · omega
    · omega

/-- A pattern entry out of its ranges is refused (R127 step 3). -/
theorem patternEntry_none (a : WritePatternArgs) (h : ¬ WritePatternArgs.inRange a) :
    WritePatternArgs.entry a = none := by
  unfold WritePatternArgs.entry
  split
  · rfl
  · rename_i ys e
    have hl := termsOf_length _ _ e
    split
    · split
      · rfl
      · rename_i hb
        simp only [not_or] at hb
        have : a.minRun.toNat ≠ 0 := fun hx => hb.2.2.2.1 (BitVec.eq_of_toNat_eq hx)
        exact absurd ⟨by omega, by omega, by omega, by omega, by omega, by omega, by omega,
          termsOf_inRange _ _ e⟩ h
    · rfl

end Sys2Proof.Machine
end

