-- ==== Sys2Proof/WellFormed.lean ====
section
/-! DEFINITION. When a term of `Instr` stands for something the part can meet: a parameter length that
a frame can carry and that really differs from the index's, a content that stays short of 57
bytes, a code outside the index. The meanings are total and do not rely on it. -/
namespace Sys2Proof

/-- A wrong length is one a frame can carry (at most 50, R168) and differs from the index's (R179). -/
def Params.wfLength {α : Type} (p : Params α) (expected : Nat) : Bool :=
  match p with
  | .fields _ => true
  | .wrongLength n => decide (n ≤ 50) && decide (n ≠ expected)

/-- WRITE_PATTERN: at most eight terms fit 50 parameter bytes; a wrong length has no one expected value
to differ from, since the count travels in the parameters (R127, R179). -/
def wfPattern (p : Params WritePatternArgs) : Bool :=
  match p with
  | .fields args => decide (args.terms.length ≤ 8)
  | .wrongLength n => decide (n ≤ 50)

/-- The two rows of MARKER_RESUME divide the action byte between them: SKIP is 1 (11.3). -/
def wfResume (p : Params MarkerResumeArgs) (skip : Bool) : Bool :=
  match p with
  | .fields args => decide (args.action = 1) == skip
  | .wrongLength n => decide (n ≤ 50) && decide (n ≠ 2) && !skip

/-- Well-formedness of a command. -/
def Instr.wf : Instr → Bool
  | .commandFrameReceived content => decide (content.length < 456)
  | .unknownCommand _ code => (indexLength code).isNone
  | .startRun _ p | .pauseRun _ p | .resumeRun _ p | .endRun _ p | .warmReset _ p
  | .listZones _ p | .flushLane _ p => p.wfLength 0
  | .setParam _ p => p.wfLength 5
  | .getParam _ p | .readProbe _ p | .readStep _ p | .readPattern _ p | .readSpray _ p
  | .cancelZone _ p | .markerCancel _ p | .readStatus _ p => p.wfLength 1
  | .writeProbe _ p => p.wfLength 41
  | .writeStep _ p => p.wfLength 7
  | .writePattern _ p => wfPattern p
  | .writeSpray _ p => p.wfLength 8
  | .addZone _ p => p.wfLength 10
  | .markerResumeRetry _ p => wfResume p false
  | .markerResumeSkip _ p => wfResume p true
  | .markerTest _ p => p.wfLength 2
  | .rebase _ p => p.wfLength 4
  | .subscribe _ p => p.wfLength 3
  | .partition _ p => p.wfLength 4
  | .readCell _ p => p.wfLength 5
  | .resetNAsserted | .resetRelease _ | .encoderTick _ _ | .illegalTransition _ | .headTaken _
  | .standstillSet | .speedIntervalEnd | .slipWindowEnd | .liftSample _ | .keepaliveTrigger
  | .stepTimerExpiry | .firingRecordTimeout _ | .setupMessageSent _ | .fireMessageSent _
  | .ready _ _ | .report _ _ _ _ | .corruptMessage _ | .setupTimeout _ | .retry _ | .drain
  | .pullinEnd _ | .holdPulsePeriod _ | .holdEnd _ | .gapEnd _ | .purgeEnd _ | .recoverEnd _
  | .linkFrame | .reportLaneByte _ | .abort | .oversize | .commandFieldEnd _ | .linkBreak
  | .delimiter => true

end Sys2Proof
end

