-- ==== Sys2Proof/Tests/Slice0.lean ====
section
/-! SUPPORT. Tests of the model against the worked examples of the manual: expected values are the manual's,
or worked out by hand from the rule named. Then, for each statement of Certificates/Slice0/Obligations.lean
with hypotheses, a state and operands that meet them. -/
namespace Sys2Proof.Tests
open Sys2Proof Sys2Proof.Machine

/-! ## Helpers -/

/-- The state after a command. -/
def after (i : Instr) (s : State) : State :=
  match exec i s with
  | .next t => t
  | _ => s

/-- Node 2 as sender, with tag 5. -/
def n2 : Sender := { node := .n2, tag := 5 }

/-- The records on node 2's lane. -/
def lane2 (s : State) : List Record := s.link.lanes.n2.records

/-- The REPLY that a command of node 2 leaves on an empty lane. -/
def replies (i : Instr) (s : State) (code : Byte) (x : Result) (data : List Byte) : Bool :=
  decide ((lane2 (after i s)).getLast? = some (.reply 5 code x data))

/-- The state at CP and HW `cp`. -/
def atCp (cp : Int) (s : State) : State := s.setOdo { s.odo with cp := cp, hw := cp }

/-- The state in a run state, with run number 7. -/
def inRun (r : RunState) (s : State) : State := s.setRun { s.run with state := r, runNumber := 7 }

/-- A gate of a role with a threshold. -/
def gate (role : GateRole) (threshold : Nat) : Gate :=
  { Gate.cold with role := role, threshold := threshold }

/-- P0 of 6.11: group 0, O −120, gate 0 COUPLING, gate 2 DROP with threshold 50 and drop band 7. -/
def p0 : Probe where
  enabled := true
  group := 0
  offset := -120
  shift := 0
  delay := 0
  lead := 0
  depthFactor := 2063
  gates := #v[gate .coupling 40, Gate.cold, { gate .drop 50 with dropBand := 7 }, Gate.cold]

/-- P3 of 5.9.1: group 3, O −350, Q +25, D 310, L 995, Kd 1448, gate 0 COUPLING, gate 1 FLAW. -/
def p3 : Probe where
  enabled := true
  group := 3
  offset := -350
  shift := 25
  delay := 310
  lead := 995
  depthFactor := 1448
  gates := #v[gate .coupling 40, gate .flaw 60, Gate.cold, Gate.cold]

/-- P0 and P3 written, one active step that holds both; the car stands at CP 120,000 in STOPPED. -/
def car : State :=
  let s := atCp 120000 State.reset
  let t := s.setProbes ((s.probes.set (0 : Fin 32) p0).set (3 : Fin 32) p3)
  (t.setSeq { t.seq with steps := t.seq.steps.set (0 : Fin 16) { probeSet := 9, listen := 100 } }).setParams
    { t.params with stepCount := 1 }

/-- The car in a run: rail A's reach −325 to −120 and K 29,902 (2.2.1), lane A OK with P0 and P3 COUPLED. -/
def running : State :=
  let s := inRun .running car
  let l := { s.lanes.a with state := .ok, coupling := Vector.replicate 16 { state := .coupled, absent := 0, present := 0 } }
  let t := (s.setLanes { s.lanes with a := l }).setRun
    { s.run with reach := { a := { least := -325, greatest := -120 }, b := .zero },
                 reachAll := { least := -325, greatest := -120 } }
  ((t.setWindows { a := .started 29902, b := .started 29984 }).setOdo
    { t.odo with standstill := false }).setSeq { t.seq with lastTrigger := 120000 }

/-- A gate result. -/
def echo (amplitude : Byte) (time : Word16) : GateResult := { amplitude := amplitude, time := time }

/-- The gate results of 5.9.1. -/
def echoes : Vector GateResult 4 := #v[echo 88 300, echo 142 2840, echo 0 0, echo 0 0]

/-- Rail A's engine and queue replaced. -/
def withEngine (e : Engine) (s : State) : State := s.setEngine .a e

/-- A NORMAL entry of origin FINDING. -/
def entry (target : Int) (spray : Fin 7) (cls : Fin 16) : MarkerEntry := offeredEntry target spray cls

/-- The setting of 9.10.1: lead 160, spray pattern 2 that of 9.5.1 and 3 with one dash of 40 ticks. -/
def marking : State :=
  let m := running.marker
  (running.setMarker { m with
    lead := 160
    sprays := (m.sprays.set (1 : Fin 7)
      { dashCount := 3, dashLength := 120, gapLength := 60, colour := true, purge := true }) }).setOdo
    { running.odo with speed := 20000 }

/-- A mark of spray pattern 2 in its first dash. -/
def mark : Mark := { marking.markOf (entry 119688 1 9) with phaseTime := 600, dashTime := 50000 }

/-- Rail A's engine painting in a phase. -/
def painting (p : PaintPhase) (m : Mark) (v : Valves) : State :=
  withEngine { queue := [], state := .painting p m, valves := v } marking

/-! ## WellFormed refuses -/

theorem test_wf_frame_too_long : (Instr.commandFrameReceived (List.replicate 456 true)).wf = false := by decide +kernel
theorem test_wf_known_code_is_not_unknown : (Instr.unknownCommand n2 0x41).wf = false := by decide
theorem test_wf_unknown_code : (Instr.unknownCommand n2 0x42).wf = true := by decide
theorem test_wf_length_is_the_index's : (Instr.startRun n2 (.wrongLength 0)).wf = false := by decide
theorem test_wf_length_above_50 : (Instr.readStatus n2 (.wrongLength 51)).wf = false := by decide
theorem test_wf_set_param_length : (Instr.setParam n2 (.wrongLength 5)).wf = false := by decide
theorem test_wf_write_probe_length : (Instr.writeProbe n2 (.wrongLength 41)).wf = false := by decide
theorem test_wf_write_step_length : (Instr.writeStep n2 (.wrongLength 7)).wf = false := by decide
theorem test_wf_write_spray_length : (Instr.writeSpray n2 (.wrongLength 8)).wf = false := by decide
theorem test_wf_add_zone_length : (Instr.addZone n2 (.wrongLength 10)).wf = false := by decide
theorem test_wf_marker_test_length : (Instr.markerTest n2 (.wrongLength 2)).wf = false := by decide
theorem test_wf_rebase_length : (Instr.rebase n2 (.wrongLength 4)).wf = false := by decide
theorem test_wf_subscribe_length : (Instr.subscribe n2 (.wrongLength 3)).wf = false := by decide
theorem test_wf_partition_length : (Instr.partition n2 (.wrongLength 4)).wf = false := by decide
theorem test_wf_read_cell_length : (Instr.readCell n2 (.wrongLength 5)).wf = false := by decide
theorem test_wf_pattern_terms : (Instr.writePattern n2 (.fields
    { pattern := 0, flags := 0, railMask := 0, spread := 0, minRun := 0, cls := 0, spray := 0,
      terms := List.replicate 9 { group := 0, kind := 0, bandMask := 0, minCount := 0, minAmplitude := 0 } })).wf
      = false := by decide
theorem test_wf_skip_is_action_1 :
    (Instr.markerResumeSkip n2 (.fields { rail := 0, action := 0 })).wf = false
      ∧ (Instr.markerResumeRetry n2 (.fields { rail := 0, action := 1 })).wf = false := by decide

/-! ## Wire formats (11.6) -/

/-- The check value of the CRC-16 over the bytes 49 to 57 (R55): 10,673. -/
theorem test_crc : crc16 [49, 50, 51, 52, 53, 54, 55, 56, 57] = 10673 := by decide +kernel

/-- The sizes of 11.6.4: a HIT 18 bytes, a LOSS 14, the SET_PARAM REPLY 12. -/
theorem test_record_sizes :
    (PlacedHit.record (running.placeFlaw .a 3 1 (echo 142 2840) 120000) 7).size = 18
      ∧ (Record.loss 0 0 0 0).size = 14
      ∧ ((lane2 (after (.setParam n2 (.fields { id := 2, value := 6 })) State.reset)).map Record.size) = [12] := by decide

/-- The HIT of 5.9.1, written out from 11.6.4: run 7, rail A FLAW gate 1, probe 3, group 3 band 0, X 119,688 =
0x1D388, cell 29,922 = 0x74E2, depth 55, amplitude 142. -/
theorem test_hit_bytes : (PlacedHit.record (running.placeFlaw .a 3 1 (echo 142 2840) 120000) 7).bytes =
    [0x04, 16, 0, 7, 0x01, 3, 0x30, 0, 1, 0xD3, 0x88, 0, 0, 0x74, 0xE2, 0, 55, 142] := by decide

/-- A PAUSE_RUN frame of 11.6.3: urgent, node 2, tag 5, code 0x02, no parameters. -/
theorem test_frame_is_read :
    commandOfFrame ([0x40, 5, 0x02, 0] ++ u16 (crc16 [0x40, 5, 0x02, 0]).toNat) =
      some (.pauseRun n2 (.fields ())) := by decide

/-- A READY message of 11.6.5 and one with a wrong code. -/
theorem test_lane_message_is_read :
    laneCommand .a ([0x61, 3] ++ u16 (crc16 [0x61, 3]).toNat) = .ready .a 3
      ∧ laneCommand .a ([0x63, 3] ++ u16 (crc16 [0x63, 3]).toNat) = .corruptMessage .a := by decide +kernel

/-! ## Resets (R31, R32) -/

theorem test_reset_asserted : (after .resetNAsserted (painting .hold mark (colourValve mark))).held = true
    ∧ (after .resetNAsserted (painting .hold mark (colourValve mark))).marker.engines.a.valves = .off := by decide

theorem test_reset_release_takes_lift : (after (.resetRelease { lowLevels with lift := true }) running).odo.lifted
    = true ∧ (after (.resetRelease lowLevels) running).odo.cp = 0 := by decide

theorem test_warm_reset_keeps_cp : (after (.warmReset n2 (.fields ())) running).odo.cp = 120000
    ∧ (after (.warmReset n2 (.fields ())) running).run.state = .stopped
    ∧ lane2 (after (.warmReset n2 (.fields ())) running) =
      [.event 120000 (.warmReset .running 7 (.command n2))] := by decide

theorem test_link_break : (after .linkBreak running).link.recovery = true
    ∧ lane2 (after .linkBreak running) = [.event 120000 (.warmReset .running 7 .linkBreak)] := by decide

/-! ## Distance and direction -/

/-- 1.4.1: one backward tick from CP and HW 1,040. -/
theorem test_tick_backward :
    (after (.encoderTick .primary .backward) (atCp 1040 State.reset)).odo.cp = 1039
      ∧ (after (.encoderTick .primary .backward) (atCp 1040 State.reset)).odo.retrace = true
      ∧ (lane2 (after (.encoderTick .primary .backward) (atCp 1040 State.reset))).head?
          = some (.event 1039 (.retrace true 1040)) := by decide

/-- R6, R9: CP is held at the upper end; LIMIT and the end of STANDSTILL each give their EVENT. -/
theorem test_tick_saturates :
    lane2 (after (.encoderTick .primary .forward) (atCp 2147483646 State.reset)) =
        [.event 2147483647 (.limit true .upper), .event 2147483647 (.standstill false)]
      ∧ (after (.encoderTick .primary .forward) (atCp 2147483647 State.reset)).odo.cp = 2147483647 := by
  decide +kernel

/-- R3: an illegal transition of the primary encoder is counted; of the secondary not while it is OFF. -/
theorem test_illegal_transition : (after (.illegalTransition .primary) State.reset).odo.errorTally = 1
    ∧ (after (.illegalTransition .secondary) State.reset).odo.errorTally = 0 := by decide

/-- R9 with 9.10.3: STANDSTILL makes speed and lead 0. -/
theorem test_standstill : (after .standstillSet marking).odo.speed = 0
    ∧ (after .standstillSet marking).marker.lead = 0
    ∧ lane2 (after .standstillSet marking) = [.event 120000 (.standstill true)] := by decide

/-- R8: a count of 655 gives 65,500 and of 656 gives 65,535; 20,000 ticks per second give lead 160 (9.10.1). -/
theorem test_speed :
    (after .speedIntervalEnd (State.reset.setOdo { State.reset.odo with intervalCount := 655 })).odo.speed = 65500
      ∧ (after .speedIntervalEnd (State.reset.setOdo { State.reset.odo with intervalCount := 656 })).odo.speed = 65535
      ∧ (after .speedIntervalEnd (State.reset.setOdo { State.reset.odo with intervalCount := 200 })).marker.lead
          = 160 := by decide

/-- The fourth window of 1.6.1. -/
def slipping : State :=
  (State.reset.setParams { State.reset.params with secondaryMode := .failover }).setOdo
    { State.reset.odo with mismatch := 2, deltaP := 1950, deltaS := 1999 }

theorem test_slip_window : (after .slipWindowEnd slipping).odo.slip = true
    ∧ (after .slipWindowEnd slipping).odo.source = .secondary
    ∧ lane2 (after .slipWindowEnd slipping) =
      [.event 0 (.slip true 1950 1999), .event 0 (.source .secondary .failover)] := by decide

/-- 2.4.1: LIFTED at CP 121,000 opens the SUSPEND zone at 120,611. -/
theorem test_lift : (after (.liftSample true) ((atCp 121000 running).setOdo
      { (atCp 121000 running).odo with liftSample := true })).zones.zones.map Zone.start = [120611] := by decide

/-! ## Firing -/

/-- R40: a KEEPALIVE cycle begins while paused. -/
theorem test_keepalive : (after .keepaliveTrigger (inRun .paused running)).seq.cycle = .stepping 0
    ∧ (after .keepaliveTrigger (inRun .paused running)).seq.kind = .keepalive := by decide

/-- 3.5.1: the order of tag 61 sits in slot 61 with the deadline 300 µs on. -/
def orderedOnce : State :=
  let s := running.setSeq { running.seq with tagCounter := 61 }
  s.beginCycle .distance

theorem test_order : (orderedOnce.seq.ring[(61 : Fin 64)]).outstanding = true
    ∧ (orderedOnce.seq.ring[(61 : Fin 64)]).expected = 9
    ∧ (orderedOnce.seq.ring[(61 : Fin 64)]).fp = 120000
    ∧ (orderedOnce.seq.ring[(61 : Fin 64)]).deadline = 30
    ∧ orderedOnce.seq.tagCounter = 62 := by decide

/-- R43: after the last step the cycle ends, and a pending trigger begins the next. -/
theorem test_step_end : (after .stepTimerExpiry orderedOnce).seq.cycle = .idle
    ∧ (after .stepTimerExpiry (orderedOnce.setSeq { orderedOnce.seq with pendingTrigger := true })).seq.cycle
        = .stepping 0 := by decide

/-- 4.7.1: the third incomplete order puts the lane in FAULT, with its EVENT. -/
theorem test_timeout_faults :
    let t := after (.firingRecordTimeout 61) (orderedOnce.setLane .a { orderedOnce.lanes.a with incomplete := 2 })
    t.lanes.a.state = .fault ∧ lane2 t = [.event 120000 (.laneState .a .fault .ok 0 .incompleteOrders)] := by decide

/-! ## Lanes -/

/-- 11.6.5: a FIRE of tag 61 to local probes 0 and 3. -/
theorem test_fire_bytes : (after (.fireMessageSent .a) orderedOnce).lanes.a.sent =
    [0x52, 61, 0, 9] ++ u16 (crc16 [0x52, 61, 0, 9]).toNat := by decide +kernel

/-- Lane A in SETUP with its two messages queued. -/
def settingUp : State := running.enterSetup .a .runStart

/-- R57: two SETUP messages, the one for P3 final. -/
theorem test_setup_messages :
    (after (.setupMessageSent .a) (after (.setupMessageSent .a) settingUp)).lanes.a.setupFinal = true
      ∧ (after (.setupMessageSent .a) settingUp).lanes.a.setupFinal = false
      ∧ (after (.setupMessageSent .a) settingUp).lanes.a.sent.length = 21 := by decide

/-- R58: the READY of the final SETUP's number takes the lane to OK; another number is unexpected. -/
def setUp : State := settingUp.setLane .a { settingUp.lanes.a with setupFinal := true, txQueue := [] }

theorem test_ready : (after (.ready .a 1) setUp).lanes.a.state = .ok
    ∧ (after (.ready .a 2) setUp).lanes.a.unexpected = 1 := by decide

/-- 5.9.1 and 6.11.2: P3's report covers group 3 in cell 29,918 and enters its hit in cell 29,922. -/
theorem test_report :
    (((after (.report .a 61 3 echoes) orderedOnce).windows.a.groups 29918)[(3 : Fin 8)]).covered = true
      ∧ ((after (.report .a 61 3 echoes) orderedOnce).windows.a.groups 29922)[(3 : Fin 8)]
          = { hits := 1, bands := 1, peak := 142, drops := 0, covered := false } := by decide

/-- 5.9.3: P0's DROP hit in cell 29,970, and a report repeated is a duplicate. -/
theorem test_report_drop :
    ((after (.report .a 61 0 #v[echo 96 0, echo 0 0, echo 12 6100, echo 0 0]) orderedOnce).windows.a.groups
        29970)[(0 : Fin 8)] = { hits := 0, bands := 0, peak := 0, drops := 1, covered := true }
      ∧ (after (.report .a 61 3 echoes) (after (.report .a 61 3 echoes) orderedOnce)).lanes.a.duplicate = 1 := by decide

theorem test_corrupt : (after (.corruptMessage .a) running).lanes.a.corrupt = 1 := by decide

theorem test_setup_timeout : (after (.setupTimeout .a) settingUp).lanes.a.state = .fault
    ∧ (after (.setupTimeout .a) settingUp).lanes.a.txQueue = [] := by decide

/-- 4.7.1: the retry takes the next setup number, with every probe UNKNOWN. -/
theorem test_retry : (after (.retry .a) (after (.setupTimeout .a) settingUp)).lanes.a.setupNumber = 2
    ∧ (after (.retry .b) (running.setLane .b { running.lanes.b with state := .fault })).lanes.b.state = .ok := by decide

/-! ## Placement (5.9.1 to 5.9.4) -/

theorem test_place_forward : (running.placeFlaw .a 3 1 (echo 142 2840) 120000).x = 119688
    ∧ (running.placeFlaw .a 3 1 (echo 142 2840) 120000).cell = 29922
    ∧ (running.placeFlaw .a 3 1 (echo 142 2840) 120000).depth = 55
    ∧ (running.placeFlaw .a 3 1 (echo 142 2840) 120000).band = 0 := by decide

theorem test_place_mirror : shiftOf 2530 (-995) = -38 ∧ cellOf (-5) 4 = -2 := by decide

theorem test_place_limits : (running.placeFlaw .a 3 1 (echo 142 250) 120000).x = 119650
    ∧ (running.placeFlaw .a 3 1 (echo 142 60310) 120000).depth = 1023
    ∧ (running.placeFlaw .a 3 1 (echo 142 60310) 120000).band = 7
    ∧ (running.handOn { running.placeFlaw .a 3 1 (echo 142 2840) 120000 with x := 2147483738 }).windows.a.misplaced
        = 1 := by decide

/-! ## Windows, zones, evaluation -/

/-- 6.11: at CP 120,001 cell 29,902 closes and K becomes 29,903. -/
theorem test_close : (after (.encoderTick .primary .forward) running).windows.a.k = 29903
    ∧ (after (.encoderTick .primary .forward) running).windows.a.tail.map ClosedCell.index = [29902] := by decide

/-- A closed cell with hits in groups 3 and 4 (8.7.2). -/
def cell (i : Int) (h3 : Nat) (b3 : Byte) (k3 h4 : Nat) (b4 : Byte) (k4 : Nat) : ClosedCell :=
  let g0 : GroupRecord := { GroupRecord.empty with covered := true }
  let g3 : GroupRecord := { hits := h3, bands := b3, peak := k3, drops := 0, covered := true }
  let g4 : GroupRecord := { hits := h4, bands := b4, peak := k4, drops := 0, covered := true }
  { ClosedCell.emptyAt i with groups := #v[g0, .empty, .empty, g3, g4, .empty, .empty, .empty] }

/-- Pattern 5 of 8.7.1. -/
def pattern5 : Pattern where
  enabled := true
  rails := 1
  spread := 1
  minRun := 2
  cls := 9
  spray := some 1
  urgent := true
  terms := [{ group := 3, kind := .flaw, bands := 3, minCount := 1, minAmplitude := 100 },
            { group := 4, kind := .flaw, bands := 7, minCount := 1, minAmplitude := 80 }]

/-- The setting of 8.7.2 with the tail of cells 29,921 to 29,927, pattern 5's run at length 3. -/
def evaluating (run : PatternRun) : State :=
  let s := (marking.setEval { marking.eval with
    patterns := marking.eval.patterns.set (5 : Fin 32) pattern5 }).setPatternRun .a 5 run
  (s.setWindow .a { (Window.started 29928) with
    opening := 29901
    tail := [cell 29921 0 0 0 1 2 95, cell 29922 2 1 150 2 2 110, cell 29923 1 1 131 0 0 0, cell 29924 0 0 0 0 0 0,
             cell 29925 0 0 0 0 0 0, cell 29926 0 0 0 0 0 0, cell 29927 0 0 0 0 0 0] }).setParams
    { s.params with required := { a := 0x19, b := 0 } }

/-- The run of 8.7.2 after cell 29,922. -/
def run2 : PatternRun :=
  { length := 2, start := 29921, groupsSeen := 0x18, peak := 150, peakBand := 0, hitTotal := 5 }

theorem test_pattern_run : (((evaluating run2).evalPattern .a 29923 5).eval.runs.a)[(5 : Fin 32)]
    = { run2 with length := 3, hitTotal := 6 } := by decide

/-- The FINDING of 8.7.2, issued here at CP 120,000. -/
def finding5 : Finding where
  runNumber := 7
  rail := .a
  pattern := 5
  cls := 9
  urgent := true
  capped := false
  startCell := 29921
  length := 3
  startTick := 119684
  groupsSeen := 0x18
  peak := 150
  peakBand := 0
  hitTotal := 6
  disposition := .queued
  spray := some 1
  cp := 120000
  generation := 0

theorem test_finding :
    ((evaluating { run2 with length := 3, hitTotal := 6 }).evaluate .a 29924).eval.alert
        = { start := 119684, rail := .a, cls := 9, count := 1 }
      ∧ ((evaluating { run2 with length := 3, hitTotal := 6 }).evaluate .a 29924).marker.engines.a.queue
        = [entry 119684 1 9]
      ∧ lane2 ((evaluating { run2 with length := 3, hitTotal := 6 }).evaluate .a 29924)
        = [.finding finding5] := by decide +kernel

/-- 8.7.3: the gap run of length 6 ends at cell 29,936 with a GAP. -/
theorem test_gap : lane2 (((evaluating .closed).setGapRun .a { length := 6, start := 29930, missing := 8 }).evalGap
    .a 29921) = [.gap (.mk 7 .a false 29930 6 8 120000)] := by decide

/-- R30: the lane that is not DOWN gives its EVENT, then the run. -/
theorem test_drain_events : lane2 (after .drain (inRun .draining running)) =
    [.event 120000 (.laneState .a .down .ok 0 .drainEnd), .event 120000 (.runState .stopped .draining 7 .drainEnd)] := by
  decide +kernel

/-- R30: DRAINING with no DISTANCE record outstanding ends in STOPPED with the windows three cells on. -/
theorem test_drain : (after .drain (inRun .draining running)).run.state = .stopped
    ∧ (after .drain (inRun .draining running)).windows.a.k = 29905
    ∧ (after .drain (inRun .draining running)).lanes.a.state = .down := by decide +kernel

/-! ## Marking (9.10) -/

/-- Rail A's queue of 9.10.2 after the three offers, at CP 122,528. -/
def due : State :=
  atCp 122528 (withEngine { Engine.cold with queue := [entry 119688 1 9, entry 119800 2 6] } marking)

theorem test_offers :
    (((marking.takeOffer .a 119688 1 9).takeOffer .a 119720 1 4).takeOffer .a 119800 2 6).marker.engines.a.queue
      = [entry 119688 1 9, entry 119800 2 6] := by decide

theorem test_head_fired : (after (.headTaken .a) due).marker.engines.a.queue = [entry 119800 2 6]
    ∧ lane2 (after (.headTaken .a) due) =
      [.mark (.mk 7 .a .fired .finding 119688 1 9 .normal 119528 0 122528)] := by decide

/-- 9.10.3 under HALT and under DEFER, at CP 124,428. -/
def late (p : LatePolicy) : State :=
  let s := atCp 124428 (withEngine { Engine.cold with queue := [entry 119800 2 6] } marking)
  s.setParams { s.params with latePolicy := { a := p, b := .defer } }

theorem test_head_late : (after (.headTaken .a) (late .halt)).marker.engines.a.state = .halted
    ∧ (after (.headTaken .a) (late .halt)).marker.engines.a.queue = [entry 119800 2 6]
    ∧ (after (.headTaken .a) (late .defer)).marker.engines.a.queue = [] := by decide

theorem test_pullin_end : (after (.pullinEnd .a) (painting .pullin mark (colourValve mark))).marker.engines.a.valves
    = { colour0 := false, colour1 := true, purge := false } := by decide

/-- R156: HOLD_PERIOD 19 and HOLD_DUTY 4 give 100 µs on and 100 µs off. -/
theorem test_hold_pulse :
    holdOnTime 19 4 = 10
      ∧ (after (.holdPulsePeriod .a) (painting .hold { mark with holdPeriod := 20, holdOn := 10 }
          (colourValve mark))).marker.engines.a.valves = .off
      ∧ (after (.holdPulsePeriod .a) (painting .hold { mark with holdPeriod := 20, holdOn := 10 }
          .off)).marker.engines.a.valves = colourValve mark := by decide

theorem test_hold_end :
    ((after (.holdEnd .a) (painting .hold mark .off)).marker.engines.a.state.code = 3)
      ∧ (after (.holdEnd .a) (painting .hold { mark with dash := 3 } .off)).marker.engines.a.state.code = 4 := by decide

theorem test_gap_end : (after (.gapEnd .a) (painting .gap mark .off)).marker.engines.a.state.code = 1 := by decide

theorem test_purge_end : (after (.purgeEnd .a) (painting .purge mark purgeValve)).marker.engines.a.state.code = 5
    ∧ (after (.purgeEnd .a) (painting .purge mark purgeValve)).marker.engines.a.valves = .off := by decide

theorem test_recover_end : (after (.recoverEnd .a) (painting .recover mark .off)).marker.engines.a.state = .idle := by decide

/-- 9.10.3: RETRY re-arms the entry EITHER with side ABOVE, at G 121,500 and F 119,800. -/
def halted : State :=
  let s := atCp 124500 (withEngine { queue := [entry 119800 2 6], state := .halted, valves := .off } marking)
  s.setMarker { s.marker with lead := 0 }

theorem test_resume_retry :
    (after (.markerResumeRetry n2 (.fields { rail := 0, action := 0 })) halted).marker.engines.a.queue
      = [{ entry 119800 2 6 with arming := .either, side := some .above }] := by decide

theorem test_resume_skip :
    (after (.markerResumeSkip n2 (.fields { rail := 0, action := 1 })) halted).marker.engines.a.queue = []
      ∧ (lane2 (after (.markerResumeSkip n2 (.fields { rail := 0, action := 1 })) halted)).map Record.kindCode = [5, 1]
      ∧ replies (.markerResumeSkip n2 (.fields { rail := 0, action := 1 })) running 0x28 .state [] = true := by decide

theorem test_marker_test :
    (after (.markerTest n2 (.fields { rail := 0, spray := 2 })) marking).marker.engines.a.state.code = 1
      ∧ replies (.markerTest n2 (.fields { rail := 0, spray := 2 })) halted 0x29 .busy [] = true := by decide

theorem test_marker_cancel : (after (.markerCancel n2 (.fields 0)) halted).marker.engines.a = .cold
    ∧ (after (.markerCancel n2 (.fields 0)) (painting .hold mark (colourValve mark))).marker.engines.a.state.code = 4 := by decide

/-! ## The link -/

/-- 11.6.2: CP 120,000, speed 0, RUNNING, frame 0 with GATE open. -/
theorem test_broadcast : (after .linkFrame running).link.broadcast =
    [0, 1, 0xD4, 0xC0, 0, 0, 0x40, 0x08, 0, 1, 0xD4, 0xC0] := by decide

/-- A lane that holds one record. -/
def oneRecord : State := State.reset.reply n2 0x39 .ok []

theorem test_lane_byte : (after (.reportLaneByte .n2) oneRecord).link.lanes.n2.lastByte = 0x01
    ∧ (after (.reportLaneByte .n2) oneRecord).link.lanes.n2.records = []
    ∧ (after (.reportLaneByte .n1) oneRecord).link.lanes.n1.lastByte = 0 := by decide

/-- The bits of a byte list, first bit first; true is recessive. -/
def bits (bs : List Byte) : List Bool := bs.flatMap fun b => [7, 6, 5, 4, 3, 2, 1, 0].map fun i => b.getLsbD i

def pauseFrame : List Byte := [0x40, 5, 0x02, 0] ++ u16 (crc16 [0x40, 5, 0x02, 0]).toNat

/-- The receiver in RECEIVING. -/
def receiving : State := after .delimiter running

theorem test_frame_received : (after (.commandFrameReceived (bits pauseFrame)) receiving).link.intake = [pauseFrame]
    ∧ (after (.commandFrameReceived (bits (pauseFrame.set 1 6))) receiving).link.badCheck = 1 := by decide +kernel

theorem test_abort : (after .abort receiving).link.aborts = 1
    ∧ (after .abort receiving).link.receiver.mode = .hunting := by decide

theorem test_oversize : (after .oversize receiving).link.oversize = 1 := by decide

theorem test_command_field : (after (.commandFieldEnd 0) running).link.dominantCount = 1
    ∧ (after (.commandFieldEnd 1) (after (.commandFieldEnd 0) running)).link.dominantCount = 0 := by decide

/-- R165, 11.6.1: the sync, most significant bit first, then the broadcast; the last bits are idle and low. -/
theorem test_lk_dout : [0, 1, 2, 3, 4, 16, 27, 1023].map (after .linkFrame running).link.doutBit
    = [some true, some true, some true, some true, some false, some false, some false, some false]
    ∧ (after .linkFrame running).link.doutBit 31 = some true
    ∧ (after .linkFrame running).link.doutBit 112 = none := by decide

theorem test_unknown : replies (.unknownCommand n2 0x42) State.reset 0x42 .unknown [] = true := by decide

/-! ## Commands -/

/-- 2.4.1 and 2.2.1: START_RUN at CP 120,000 answers the run number and sets rail A's K to 29,902. -/
theorem test_start_run : (after (.startRun n2 (.fields ())) car).windows.a.k = 29902
    ∧ replies (.startRun n2 (.fields ())) car 0x01 .ok [0, 1] = true
    ∧ replies (.startRun n2 (.fields ())) State.reset 0x01 .config [1] = true := by decide

theorem test_pause_run : (after (.pauseRun n2 (.fields ())) running).run.state = .paused
    ∧ replies (.pauseRun n2 (.fields ())) State.reset 0x02 .state [0] = true := by decide

/-- 2.4.1: RESUME_RUN at CP 121,800 finishes the zone; with REACH_MAX −120 the end is 121,680. -/
theorem test_resume_run : (after (.resumeRun n2 (.fields ())) (atCp 121800 (after (.pauseRun n2 (.fields ()))
    running))).zones.zones.map Zone.stop = [some 121680] := by decide

theorem test_end_run : (after (.endRun n2 (.fields ())) running).run.state = .draining
    ∧ (after (.endRun n2 (.fields ())) running).run.endK.a = 29902 := by decide

theorem test_set_param_clamps : replies (.setParam n2 (.fields { id := 2, value := 300 })) State.reset 0x10 .clamped
    [2, 0, 0, 0, 255, 0, 1] = true
    ∧ replies (.setParam n2 (.fields { id := 1, value := 4 })) running 0x10 .busy [] = true := by decide

theorem test_get_param : replies (.getParam n2 (.fields 25)) State.reset 0x11 .ok [25, 0xFF, 0xFF, 0xF4, 0x48] = true
    ∧ replies (.getParam n2 (.fields 38)) State.reset 0x11 .range [] = true := by decide

/-- R30: END_RUN with nothing outstanding drains before a command that already waits. -/
theorem test_drain_comes_first : (after (.endRun n2 (.fields ()))
      (running.withPending [.startRun n2 (.fields ())])).pending = [.drain, .startRun n2 (.fields ())]
    ∧ (after (.endRun n2 (.fields ())) orderedOnce).pending = [] := by decide +kernel

/-- R112: near the top of the range the SUSPEND zone's start is held in the range. -/
theorem test_suspend_start_in_range : ((atCp tickMax running).setRun { running.run with
      reachAll := { least := 4000, greatest := 4000 } }).suspendStart = tickMax := by decide

/-- P3 as WRITE_PROBE carries it (11.3). -/
def writeP3 : WriteProbeArgs where
  probe := 3
  enabled := 1
  group := 3
  offset := -350
  shift := 25
  delay := 310
  lead := 995
  depthFactor := 1448
  gates := #v[{ role := 3, windowStart := 0, windowWidth := 1, threshold := 40, dropBand := 0 },
              { role := 1, windowStart := 0, windowWidth := 1, threshold := 60, dropBand := 0 },
              { role := 0, windowStart := 0, windowWidth := 1, threshold := 255, dropBand := 0 },
              { role := 0, windowStart := 0, windowWidth := 1, threshold := 255, dropBand := 0 }]

theorem test_write_probe : (after (.writeProbe n2 (.fields writeP3)) State.reset).probes[(3 : Fin 32)] = p3
    ∧ replies (.writeProbe n2 (.fields { writeP3 with group := 4 })) running 0x12 .busy [] = true := by decide

/-- R75: a delay above 4095 is taken as 4095 and the REPLY carries it. -/
theorem test_write_probe_clamps : replies (.writeProbe n2 (.fields { writeP3 with delay := 4096 })) State.reset 0x12
    .clamped [0x0F, 0xFF, 0, 1] = true := by decide

theorem test_read_probe : (lane2 (after (.readProbe n2 (.fields 3)) car)).map Record.size = [45] := by decide

theorem test_write_step : ((after (.writeStep n2 (.fields { step := 2, probeSet := 8, listen := 5 })) car).seq.steps)[
    (2 : Fin 16)] = { probeSet := 8, listen := 10 }
    ∧ replies (.writeStep n2 (.fields { step := 0, probeSet := 8, listen := 100 })) running 0x14 .busy [] = true := by decide

theorem test_read_step : replies (.readStep n2 (.fields 0)) car 0x15 .ok [0, 0, 0, 9, 0, 100, 1] = true := by decide

/-- Pattern 5 of 8.7.1 as WRITE_PATTERN carries it. -/
def writePattern5 : WritePatternArgs where
  pattern := 5
  flags := 3
  railMask := 1
  spread := 1
  minRun := 2
  cls := 9
  spray := 2
  terms := [{ group := 3, kind := 0, bandMask := 3, minCount := 1, minAmplitude := 100 },
            { group := 4, kind := 0, bandMask := 7, minCount := 1, minAmplitude := 80 }]

theorem test_write_pattern : ((after (.writePattern n2 (.fields writePattern5)) running).eval.patterns)[(5 : Fin 32)]
    = pattern5 := by decide

theorem test_read_pattern : replies (.readPattern n2 (.fields 5)) (evaluating run2) 0x17 .ok
    [3, 1, 1, 2, 9, 2, 2, 3, 0, 3, 1, 100, 4, 0, 7, 1, 80, 2, 0, 0, 0x74, 0xE1, 0] = true := by decide

theorem test_write_spray : ((after (.writeSpray n2 (.fields
      { number := 2, dashCount := 3, dashLength := 120, gapLength := 60, colour := 1, purge := 1 })) running
      ).marker.sprays)[(1 : Fin 7)] = marking.marker.sprays[(1 : Fin 7)]
    ∧ replies (.writeSpray n2 (.fields
      { number := 0, dashCount := 3, dashLength := 120, gapLength := 60, colour := 1, purge := 1 })) running 0x18
      .range [] = true := by decide

theorem test_read_spray : replies (.readSpray n2 (.fields 2)) marking 0x19 .ok [3, 0, 120, 0, 60, 1, 1] = true := by decide

/-- 7.7: ADD_ZONE at CP 121,900 past and ahead of the close ticks. -/
def zone1 : AddZoneArgs := { railMask := 3, groupMask := 0xFF, start := 118000, stop := 119000 }
def zone2 : AddZoneArgs := { railMask := 1, groupMask := 8, start := 122400, stop := 122480 }

theorem test_add_zone : replies (.addZone n2 (.fields zone1)) running 0x20 .past [] = true
    ∧ replies (.addZone n2 (.fields zone2)) running 0x20 .ok [0] = true := by decide

/-- The run with zone2 in its list. -/
def zoned : State := after (.addZone n2 (.fields zone2)) running

theorem test_cancel_zone : (after (.cancelZone n2 (.fields 0)) zoned).zones.zones = []
    ∧ replies (.cancelZone n2 (.fields 9)) zoned 0x21 .notFound [] = true := by decide

theorem test_list_zones : replies (.listZones n2 (.fields ())) zoned 0x22 .ok
    [1, 1, 0, 0, 1, 8, 0, 1, 0xDE, 0x20, 0, 1, 0xDE, 0x70, 1, 2] = true := by decide

/-- 7.7: REBASE with delta 4,000 in STOPPED. -/
theorem test_rebase : (after (.rebase n2 (.fields 4000)) (atCp 124000 State.reset)).odo.cp = 120000
    ∧ replies (.rebase n2 (.fields 4000)) running 0x30 .busy [] = true := by decide

/-- R15: a REBASE to the end of the range gives a LIMIT EVENT before its REPLY. -/
theorem test_rebase_limit : (lane2 (after (.rebase n2 (.fields 0x80000002)) (atCp 1 State.reset))).map Record.kindCode
    = [6, 1] := by decide

theorem test_subscribe : (after (.subscribe n2 (.fields { kindMask := 4, classMask := 1 })) running).link.lanes.n2.kindMask
    = 4 ∧ replies (.subscribe n2 (.fields { kindMask := 32, classMask := 1 })) running 0x38 .range [] = true := by decide

theorem test_flush_lane : lane2 (after (.flushLane n2 (.fields ())) oneRecord) = [.reply 5 0x39 .ok []] := by decide

theorem test_partition : replies (.partition n2 (.fields { intake := 4, lane1 := 1, lane2 := 29, lane3 := 30 }))
    State.reset 0x3A .ok [] = true
    ∧ replies (.partition n2 (.fields { intake := 4, lane1 := 1, lane2 := 29, lane3 := 31 })) State.reset 0x3A .range
      [] = true := by decide

theorem test_read_cell : replies (.readCell n2 (.fields { rail := 1, cell := 5 })) running 0x40 .notFound [] = true
    ∧ (lane2 (after (.readCell n2 (.fields { rail := 0, cell := 29902 })) running)).map Record.size = [42] := by decide

/-- Section 5 of R182: MUTE zone count, SUSPEND slot, zone id counter. -/
theorem test_read_status : (lane2 (after (.readStatus n2 (.fields 5)) zoned)).getLast?
    = some (.reply 5 0x41 .ok [5, 1, 0, 1]) := by decide

/-- 10.8.1: the fortieth HIT leaves 396 bytes and a shed tally of 18; a FINDING then makes the LOSS. -/
def lane512 : ReportLane :=
  { ReportLane.cold with
      pages := 1
      records := List.replicate 22 (PlacedHit.record (running.placeFlaw .a 3 1 (echo 142 2840) 120000) 7) }

theorem test_hit_shed : (lane512.accept 120400
      (PlacedHit.record (running.placeFlaw .a 3 1 (echo 142 2840) 120000) 7)).shed = 1
    ∧ (({ lane512 with shed := 18 } : ReportLane).accept 120412 (.reply 5 0x39 .ok [])).records.length = 24 := by decide

/-- One edge from reset begins the first link frame (notes/assumptions/2.md). -/
theorem test_idle_step : State.reset.idle.pending = [.linkFrame] := by decide

/-! ## Witnesses: a state and operands that meet the hypotheses of each statement -/

theorem test_witness_IdleStepOnlyAges : State.reset.pending = []
    ∧ step State.reset = .next State.reset.idle ∧ State.reset.idle.samples = 1 := ⟨by decide, rfl, by decide⟩

theorem test_witness_ColdResetHoldsAndReleases : (after .resetNAsserted running).held = true
    ∧ (∀ l, Instr.delimiter ≠ .resetRelease l) ∧ Instr.delimiter ≠ .resetNAsserted := by
  refine ⟨by decide, ?_, by decide⟩
  intro l h; cases h

theorem test_witness_SourceTickMovesCp : running.held = false ∧ Encoder.primary = running.odo.source := by decide

/-- A tick that triggers, one that only moves CP, one that CP's end holds, and one that meets a queue. -/
theorem test_witness_SourceTickMovesCp_clauses :
    let s := atCp (119999 + running.params.fireSpacing) running
    let tick : State → State := after (.encoderTick .primary .forward)
    (tick s).odo.cp ≠ s.odo.cp ∧ s.run.state = .running ∧ s.run.suspension = false
      ∧ s.params.fireSpacing ≤ ((tick s).odo.cp - s.seq.lastTrigger).natAbs
      ∧ s.seq.cycle = .idle ∧ s.params.stepCount ≠ 0
      ∧ ¬ running.params.fireSpacing ≤ ((tick running).odo.cp - running.seq.lastTrigger).natAbs
      ∧ (tick (atCp tickMax running)).odo.cp = (atCp tickMax running).odo.cp
      ∧ (tick (withEngine { Engine.cold with queue := [entry 119688 1 9] } marking)).marker.engines.a.queue
        = [entry 119688 1 9] := by decide +kernel

theorem test_witness_OtherEncoderEvents : running.held = false ∧ Encoder.secondary ≠ running.odo.source := by decide

theorem test_witness_SpeedAndStandstill : marking.held = false ∧ marking.odo.standstill = false
    ∧ State.reset.held = false ∧ State.reset.odo.standstill = true := by decide

theorem test_witness_SlipWindowIsJudged : slipping.held = false ∧ slipping.params.secondaryMode = .failover
    ∧ running.held = false ∧ running.params.secondaryMode = .off := by decide

theorem test_witness_LiftSampleDebounces : running.held = false
    ∧ (after (.liftSample true) (after (.liftSample true) orderedOnce)).odo.lifted ≠ orderedOnce.odo.lifted
    ∧ orderedOnce.seq.cycle ≠ .idle := by decide

theorem test_witness_KeepaliveBeginsCycle :
    (inRun .paused running).held = false ∧ (inRun .paused running).odo.lifted = false
      ∧ (inRun .paused running).seq.cycle = .idle ∧ (inRun .paused running).params.stepCount ≠ 0
      ∧ (inRun .paused orderedOnce).seq.cycle ≠ .idle ∧ (inRun .paused orderedOnce).odo.lifted = false := by decide

/-- One step of one, so the cycle ends; with two steps it goes on. -/
theorem test_witness_StepEndsOrCycleEnds : orderedOnce.held = false ∧ orderedOnce.params.stepCount ≤ 16
    ∧ orderedOnce.seq.cycle = .stepping 0 ∧ ¬ (0 + 1 < orderedOnce.params.stepCount)
    ∧ 0 + 1 < (orderedOnce.setParams { orderedOnce.params with stepCount := 2 }).params.stepCount := by decide

/-- At 25 ticks, FIRE_SPACING at its reset value, the trigger fires; at 24 it does not. -/
theorem test_witness_DistanceTriggerIsTested :
    running.run.state = .running ∧ running.run.suspension = false ∧ running.odo.standstill = false
      ∧ running.params.fireSpacing ≤ ((atCp (120000 + running.params.fireSpacing) running).odo.cp
          - running.seq.lastTrigger).natAbs
      ∧ ¬ running.params.fireSpacing ≤ ((atCp (119999 + running.params.fireSpacing) running).odo.cp
          - running.seq.lastTrigger).natAbs := by decide

theorem test_witness_LanePartIssuesOrder : running.laneSet 0 .a = 9 ∧ (running.lanes.get .a).state = .ok
    ∧ (running.seq.ring[ringSlot running.seq.tagCounter]).outstanding = false ∧ running.laneSet 0 .b = 0 := by decide

theorem test_witness_RecordTimesOut : orderedOnce.held = false
    ∧ (orderedOnce.seq.ring[(61 : Fin 64)]).outstanding = true
    ∧ (orderedOnce.seq.ring[(60 : Fin 64)]).outstanding = false := by decide

/-- In DRAINING the order of orderedOnce is the last DISTANCE record; with slot 60 outstanding too it is not. -/
theorem test_witness_RecordTimesOut_drain :
    (inRun .draining orderedOnce).run.state = .draining
      ∧ (orderedOnce.seq.ring[(61 : Fin 64)]).kind = .distance
      ∧ (∀ j : Fin 64, j ≠ 61 → (orderedOnce.seq.ring[j]).outstanding = false) := by decide +kernel

theorem test_witness_LaneMessagesAreSent : settingUp.held = false ∧ (settingUp.lanes.get .a).state = .setup
    ∧ (settingUp.lanes.get .a).txQueue.map LaneMessage.isSetup = [true, true]
    ∧ (orderedOnce.lanes.get .a).state = .ok
    ∧ (orderedOnce.lanes.get .a).txQueue = [.fire 61 9] := by decide

theorem test_witness_ReadyIsJudged : setUp.held = false ∧ (setUp.lanes.get .a).state = .setup
    ∧ (setUp.lanes.get .a).setupFinal = true ∧ (setUp.lanes.get .a).setupNumber = 1
    ∧ (running.lanes.get .a).state ≠ .setup := by decide

theorem test_witness_LaneWaitEnds : settingUp.held = false ∧ (settingUp.lanes.get .a).state = .setup
    ∧ ((after (.setupTimeout .a) settingUp).lanes.get .a).state = .fault
    ∧ (settingUp.probes[probeNo .a 3]).enabled = true
    ∧ (∀ p : Fin 16, (settingUp.probes[probeNo .b p]).enabled = false)
    ∧ ((settingUp.setLane .b { settingUp.lanes.b with state := .fault }).lanes.get .b).state = .fault := by decide

/-- The report of 5.9.1 is taken; another tag is stale, another rail or probe unexpected, a second one a duplicate. -/
theorem test_witness_ReportIsMatched :
    let x := orderedOnce.seq.ring[ringSlot 61]
    let y := (after (.report .a 61 3 echoes) orderedOnce).seq.ring[ringSlot 61]
    orderedOnce.held = false ∧ x.outstanding = true ∧ x.tag = 61 ∧ x.lane = .a ∧ x.expected.getLsbD 3 = true
      ∧ x.received.getLsbD 3 = false
      ∧ x.tag ≠ 125 ∧ ringSlot 125 = ringSlot 61 ∧ x.lane ≠ .b ∧ x.expected.getLsbD 4 = false
      ∧ y.outstanding = true ∧ y.received.getLsbD 3 = true := by decide

/-- The report of 5.9.1 is admitted: DISTANCE, COUPLED after it, and the lane OK. -/
theorem test_witness_ReportIsMatched_admitted :
    (orderedOnce.seq.ring[ringSlot 61]).kind = .distance ∧ (orderedOnce.lanes.get .a).state = .ok
      ∧ (((orderedOnce.lanes.get .a).coupling[(3 : Fin 16)]).after p3 echoes 8 4).state = .coupled
      ∧ (orderedOnce.seq.ring[ringSlot 61]).received ||| bit16 3 ≠ (orderedOnce.seq.ring[ringSlot 61]).expected := by
  decide

theorem test_witness_CouplingFollowsReports :
    (p3.gates[(0 : Fin 4)]).role = .coupling ∧ (p3.gates[(0 : Fin 4)]).threshold ≤ (echo 40 300).amplitude.toNat
      ∧ ¬ (p3.gates[(0 : Fin 4)]).threshold ≤ (echo 39 300).amplitude.toNat
      ∧ (∀ g : Fin 4, (Probe.cold.gates[g]).role ≠ .coupling)
      ∧ 1 ≤ State.reset.params.coupleLose ∧ 1 ≤ State.reset.params.coupleGain := by decide

/-- A hit one tick beyond each end of the range. -/
theorem test_witness_HitsArePlaced :
    tickMax < ({ running.placeFlaw .a 3 1 (echo 142 2840) 120000 with x := 2147483648 } : PlacedHit).x
      ∧ ({ running.placeFlaw .a 3 1 (echo 142 2840) 120000 with x := -2147483649 } : PlacedHit).x < tickMin := by
  decide

/-- Cells K − 1, K, K + 1023 and K + 1024, and a position inside and outside a MUTE zone. -/
theorem test_witness_ItemsEnterTheWindow :
    let h := fun c x => ({ running.placeFlaw .a 3 1 (echo 142 2840) 120000 with cell := c, x := x } : PlacedHit)
    let w := running.windows.get .a
    (h 29901 119604).cell < w.k ∧ running.odo.retrace = false ∧ (atCp 119999 running).odo.retrace = false
      ∧ (after (.encoderTick .primary .backward) running).odo.retrace = true
      ∧ w.k ≤ (h 29902 119608).cell ∧ (h 30925 123700).cell ≤ w.k + 1023
      ∧ w.k + 1023 < (h 30926 123704).cell ∧ w.wf = true
      ∧ (zoned.zones.zones.any fun z => holdsRail z.rails .a && z.groups.getLsbD 3
          && decide (z.start ≤ 122480) && decide (122480 ≤ z.stop.getD 0)) = true
      ∧ (zoned.zones.zones.any fun z => decide (z.start ≤ 122481) && decide (122481 ≤ z.stop.getD 0)) = false := by
  decide

/-- A pause opens the SUSPEND zone at the close line: a hit above it, of rail fired before, is entered while PAUSED (R27)
and muted once a resumption under LIFTED leaves the zone open in RUNNING (R120). -/
theorem test_witness_ItemsEnterTheWindow_paused :
    let h := ({ running.placeFlaw .a 3 1 (echo 142 2840) 120000 with cell := 29910, x := 119640 } : PlacedHit)
    let p := after (.pauseRun n2 (.fields ())) running
    p.run.state = .paused ∧ p.zones.zones.map Zone.start = [119611] ∧ p.zones.zones.map Zone.stop = [none]
      ∧ p.hitCase .a h.group h.cell h.x = .entered
      ∧ (p.setRun { p.run with state := .running }).hitCase .a h.group h.cell h.x = .muted := by decide

/-- A window with an entered hit and a tail of seven cells. -/
theorem test_witness_CellCloses : ((after (.report .a 61 3 echoes) orderedOnce).windows.get .a).wf = true
    ∧ ((after (.report .a 61 3 echoes) orderedOnce).windows.get .a).cells.length = 2
    ∧ ((evaluating run2).windows.get .a).wf = true ∧ ((evaluating run2).windows.get .a).tail.length = 7 := by decide

/-- A cell of the run is evaluated at its close; a window just opened evaluates none. A zone that K = 29,903 leaves
behind expires, and one it does not stays. -/
theorem test_witness_CellCloses_clauses :
    let s := evaluating run2
    s.windows.a.opening ≤ s.windows.a.k - 3 ∧ ¬ running.windows.a.opening ≤ running.windows.a.k - 3
      ∧ ((after (.addZone n2 (.fields { zone2 with start := 119608, stop := 119611 })) running).closeCell .a false
          ).zones.zones = []
      ∧ ((after (.addZone n2 (.fields { zone2 with start := 119608, stop := 119612 })) running).closeCell .a false
          ).zones.zones.length = 1 := by decide +kernel

theorem test_witness_DrainEndsTheRun : (inRun .draining running).held = false ∧ windowsSound (inRun .draining running)
    ∧ (inRun .draining running).run.state = .draining
    ∧ ∀ i : Fin 64, ((inRun .draining running).seq.ring[i]).outstanding = false := by
  refine ⟨by decide, ⟨by decide, by decide, ?_, ?_⟩, by decide, by decide +kernel⟩ <;> intro x h <;> cases h

theorem test_witness_PatternRunFollowsCells : ((evaluating run2).eval.patterns[(5 : Fin 32)]).enabled = true
    ∧ holdsRail ((evaluating run2).eval.patterns[(5 : Fin 32)]).rails .a = true
    ∧ pattern5.matchesAt ((evaluating run2).windows.get .a) 29923 = true
    ∧ pattern5.matchesAt ((evaluating run2).windows.get .a) 29924 = false
    ∧ ((evaluating { run2 with length := 63 }).eval.runs.get .a)[(5 : Fin 32)].length + 1 = 64 := by decide

theorem test_witness_GapRunFollowsCells :
    missingGroups 0x28 (((evaluating run2).windows.get .a).closedAt 29922) = 0x20
      ∧ missingGroups 0x19 (((evaluating run2).windows.get .a).closedAt 29922) = 0 := by decide

/-- Runs at their minimum and one below it, and a gap run that its next cell brings to 1024. -/
theorem test_witness_RunsAreIssued :
    pattern5.minRun = 2 ∧ run2.length = 2 ∧ ({ run2 with length := 1 } : PatternRun).length < pattern5.minRun
      ∧ State.reset.params.gapMin = 4
      ∧ (({ length := 1023, start := 29000, missing := 8 } : GapRun).extend 30023 8).length = 1024 := by decide

/-- The last entry's own target and MERGE_TICKS beyond it merge; one tick below and one beyond do not. -/
theorem test_witness_FindingAlertsAndOffers :
    let s := withEngine { Engine.cold with queue := [entry 119688 1 9] } marking
    (s.offerVerdict .a 119688 1 = .merged) ∧ (s.offerVerdict .a (119688 + s.params.mergeTicks) 1 = .merged)
      ∧ s.offerVerdict .a 119687 1 = .queued ∧ s.offerVerdict .a (119689 + s.params.mergeTicks) 1 = .queued
      ∧ (withEngine { Engine.cold with queue := List.replicate 16 (entry 119688 1 9) } marking).offerVerdict
          .a 119688 2 = .queueFull := by decide

/-- Heads within LATE_TOL and beyond it, under both policies. -/
theorem test_witness_HeadIsTaken : due.held = false
    ∧ (due.marker.engines.get .a).queue = [entry 119688 1 9, entry 119800 2 6]
    ∧ due.isDue .a (entry 119688 1 9) = true ∧ due.lateness .a (entry 119688 1 9) ≤ due.params.lateTol
    ∧ (late .halt).isDue .a (entry 119800 2 6) = true
    ∧ ¬ (late .halt).lateness .a (entry 119800 2 6) ≤ (late .halt).params.lateTol
    ∧ (late .halt).params.latePolicy.get .a = .halt ∧ (late .defer).params.latePolicy.get .a = .defer := by decide

/-- Under DROP the due test removes the late head; within LATE_TOL it keeps it; an EITHER head that has crossed is
latched. -/
theorem test_witness_HeadIsTaken_dueTest : ((late .drop).dueTest .a).marker.engines.a.queue = []
    ∧ (due.dueTest .a).marker.engines.a.queue = [entry 119688 1 9, entry 119800 2 6]
    ∧ ((withEngine { Engine.cold with queue :=
        [{ entry 119688 1 9 with arming := .either, side := some .below }] } (late .drop)).dueTest .a
        ).marker.engines.a.queue.map MarkerEntry.due = [true] := by decide

theorem test_witness_HoldIsPulsed :
    (painting .pullin mark (colourValve mark)).held = false
      ∧ ((painting .pullin mark (colourValve mark)).marker.engines.get .a).state = .painting .pullin mark
      ∧ ((painting .hold mark (colourValve mark)).marker.engines.get .a).state = .painting .hold mark := by decide

theorem test_witness_PhasesFollowTheTable : (painting .gap mark .off).held = false
    ∧ ((painting .hold mark .off).marker.engines.get .a).state = .painting .hold mark
    ∧ mark.dash < mark.shape.dashCount ∧ mark.shape.purge = true ∧ 0 < marking.params.purgeMs
    ∧ ¬ ({ mark with dash := 3 } : Mark).dash < mark.shape.dashCount
    ∧ ((painting .gap mark .off).marker.engines.get .a).state = .painting .gap mark
    ∧ ((painting .purge mark purgeValve).marker.engines.get .a).state = .painting .purge mark
    ∧ ((painting .recover mark .off).marker.engines.get .a).state = .painting .recover mark := by decide

theorem test_witness_MarkerResumeReleases : halted.held = false
    ∧ railOf (MarkerResumeArgs.mk 0 0).rail = some .a ∧ railOf (MarkerResumeArgs.mk 2 0).rail = none
    ∧ (halted.marker.engines.get .a).state = .halted ∧ (running.marker.engines.get .a).state ≠ .halted
    ∧ (halted.marker.engines.get .a).queue = [entry 119800 2 6]
    ∧ ((halted.setQueue .a []).marker.engines.get .a).state = .halted
    ∧ ((halted.setQueue .a []).marker.engines.get .a).queue = []
    ∧ (MarkerResumeArgs.mk 0 1).action ≠ 0 ∧ ¬ 1 < (MarkerResumeArgs.mk 0 1).action.toNat := by decide

theorem test_witness_MarkerTestAndCancel : marking.held = false ∧ railOf 0 = some .a ∧ sprayOf 2 = some 1
    ∧ sprayOf 0 = none ∧ sprayOf 8 = none ∧ (marking.marker.engines.get .a).state = .idle
    ∧ (halted.marker.engines.get .a).state ≠ .idle := by decide

/-- A test mark gives its MARK record and its REPLY; a queue of two is cancelled with two MARK records; a cut mark goes to
PURGE, or without purge to RECOVER, or with RECOVER_MS 0 to IDLE. -/
theorem test_witness_MarkerTestAndCancel_clauses :
    let cut := fun s => (after (.markerCancel n2 (.fields 0)) s).marker.engines.a.state.code
    let plain := { mark with shape := { mark.shape with purge := false } }
    let s := painting .hold plain (colourValve plain)
    (lane2 (after (.markerTest n2 (.fields { rail := 0, spray := 2 })) marking)).map Record.kindCode = [5, 1]
      ∧ (lane2 (after (.markerCancel n2 (.fields 0)) (marking.setQueue .a [entry 119800 2 6, entry 119900 1 6]))).map
          Record.kindCode = [5, 5, 1]
      ∧ mark.shape.purge = true ∧ 0 < s.params.purgeMs ∧ cut (painting .hold mark (colourValve mark)) = 4 ∧ cut s = 5
      ∧ cut (s.setParams { s.params with recoverMs := 0 }) = 0 := by decide

theorem test_witness_LinkFrameIsSampled : running.held = false
    ∧ (after .linkFrame running).link.sync = [0xF0, 0xB4]
    ∧ (after .linkFrame running).link.broadcast.length = 12
    ∧ State.reset.held = false ∧ State.reset.idle.samples ≠ 0 := by decide

/-- A record to take, one on its way, and neither. -/
theorem test_witness_LaneByteIsSent : oneRecord.held = false
    ∧ (oneRecord.link.lanes.get .n2).records = [.reply 5 0x39 .ok []] ∧ (oneRecord.link.lanes.get .n2).stage = none
    ∧ ((after (.reportLaneByte .n2) oneRecord).link.lanes.get .n2).stage = some (.reply 5 0x39 .ok [], 1)
    ∧ (oneRecord.link.lanes.get .n1).records = [] := by decide

theorem test_witness_CommandFrameIsJudged : receiving.held = false ∧ receiving.link.receiver.mode = .receiving
    ∧ receiving.link.recovery = false ∧ bytesOfBits (bits pauseFrame) = some pauseFrame
    ∧ bytesOfBits [true] = none := by decide +kernel

theorem test_witness_ReceiverAndBreaks : running.held = false ∧ running.link.receiver.mode = .hunting
    ∧ running.link.recovery = false ∧ receiving.link.receiver.mode = .receiving
    ∧ receiving.link.recovery = false := by decide

/-- Break recovery, its end, and the eighth dominant field, which puts the link break first. -/
theorem test_witness_ReceiverAndBreaks_clauses :
    let broken := after .linkBreak running
    broken.link.recovery = true ∧ (after (.commandFieldEnd (BitVec.allOnes 64)) broken).link.recovery = false
      ∧ (after (.commandFieldEnd 0) (running.setLink { running.link with dominantCount := 7 })).pending
        = [.linkBreak]
      ∧ ∀ n : Node, 1 ≤ (running.link.lanes.get n).pages := by
  refine ⟨by decide, by decide, by decide, ?_⟩
  intro n; cases n <;> decide

/-- A HIT that finds room and one that does not; another record that leaves the reserve. -/
theorem test_witness_LaneJudgesRecords : 1 ≤ lane512.pages ∧ 4 * ReportLane.cold.fill < 3 * (1 * 512)
    ∧ ¬ 4 * lane512.fill < 3 * (lane512.pages * 512)
    ∧ lane512.fill + (Record.reply 5 0x39 .ok []).size ≤ lane512.pages * 512 - 16
    ∧ lane512.shed = 0 ∧ lane512.lost = 0
    ∧ ({ lane512 with shed := 18 } : ReportLane).shed ≠ 0 := by decide

/-- R172 at the cold subscription: an EVENT goes to every lane and a HIT to none; a class mask without class 9 keeps
a FINDING of class 9 away. -/
theorem test_witness_LaneJudgesRecords_takes :
    let hit := (running.placeFlaw .a 3 1 (echo 142 2840) 120000).record 7
    (running.link.lanes.get .n1).kindMask.getLsbD 4 = true ∧ (running.link.lanes.get .n1).kindMask.getLsbD 2 = false
      ∧ lane2 (running.emit (.event 120000 (.standstill true))) = [.event 120000 (.standstill true)]
      ∧ lane2 (running.emit hit) = []
      ∧ (running.emit hit).link = running.link
      ∧ ({ ReportLane.cold with classMask := 0xFDFF } : ReportLane).takes (.finding { finding5 with cls := 9 }) = false
      ∧ ReportLane.cold.takes (.finding { finding5 with cls := 9 }) = true := by decide

theorem test_witness_SubscribeAndFlush : oneRecord.held = false ∧ 1 ≤ (oneRecord.link.lanes.get .n2).pages
    ∧ 32 ≤ (SubscribeArgs.mk 32 1).kindMask.toNat ∧ ¬ 32 ≤ (SubscribeArgs.mk 31 1).kindMask.toNat := by decide

theorem test_witness_PartitionDividesMemory : State.reset.held = false ∧ State.reset.run.state = .stopped
    ∧ running.run.state ≠ .stopped
    ∧ (PartitionArgs.mk 16 16 16 16).intake.toNat + 16 + 16 + 16 = 64
    ∧ (oneRecord.link.lanes.get .n2).records ≠ [] ∧ (oneRecord.link.lanes.get .n1).records = [] := by decide

theorem test_witness_UnknownAndWrongLength : running.held = false ∧ State.reset.held = false := by decide

/-- STOPPED with no step, with steps without a probe, and with band limits that fall. -/
theorem test_witness_RunControlIsJudged : running.held = false ∧ running.run.state ≠ .stopped
    ∧ car.run.state ≠ .running ∧ car.run.state ≠ .paused ∧ car.run.state = .stopped
    ∧ State.reset.run.state = .stopped ∧ State.reset.params.stepCount = 0
    ∧ (State.reset.setParams { State.reset.params with stepCount := 1 }).configFault = some 2
    ∧ (car.setParams { car.params with bands := #v[900, 1, 2, 3, 4, 5, 6] }).configFault = some 3 := by decide

theorem test_witness_StartRunStartsARun : car.held = false ∧ car.run.state = .stopped
    ∧ car.run.suspension = false ∧ car.configFault = none
    ∧ car.odo.lifted = false ∧ (after (.liftSample true) (after (.liftSample true) car)).odo.lifted = true := by decide

theorem test_witness_PauseResumeEnd : running.held = false ∧ running.run.state = .running
    ∧ (after (.pauseRun n2 (.fields ())) running).run.state = .paused ∧ orderedOnce.seq.cycle ≠ .idle
    ∧ orderedOnce.run.state = .running := by decide

theorem test_witness_PauseResumeEnd_drain :
    (∀ i : Fin 64, (running.seq.ring[i]).outstanding = false)
      ∧ (orderedOnce.seq.ring[(61 : Fin 64)]).outstanding = true
      ∧ (orderedOnce.seq.ring[(61 : Fin 64)]).kind = .distance := by decide +kernel

theorem test_witness_WarmResetClears : running.held = false ∧ 1 ≤ (running.link.lanes.get .n2).pages := by decide

/-- A delta that moves CP and HW to the end of the range, and one tick beyond it. -/
theorem test_witness_RebaseMovesCoordinates :
    let s := atCp 124000 State.reset
    s.held = false ∧ s.run.state = .stopped ∧ s.zones.zones = [] ∧ running.run.state ≠ .stopped
      ∧ s.odo.cp - (-2147359647 : Int) = tickMax ∧ ¬ s.odo.cp - (-2147359648 : Int) ≤ tickMax := by decide

theorem test_witness_ParametersAreWrittenAndRead : State.reset.held = false ∧ State.reset.run.state = .stopped
    ∧ 0 ≤ (2 : Word32).toInt ∧ (2 : Word32).toInt ≤ 2 ∧ ¬ (3 : Word32).toInt ≤ 2
    ∧ (0xFFFFFFFF : Word32).toInt < 0 := by decide

/-- A write of OFF with SLIP set and the source SECONDARY gives SLIP, SOURCE and the REPLY; a gun offset written under
DROP makes the late head of its rail leave the queue with a MARK record before the REPLY. -/
theorem test_witness_ParametersAreWrittenAndRead_clauses :
    let s := State.reset.setOdo { State.reset.odo with slip := true, source := .secondary }
    let d := inRun .stopped (late .drop)
    (lane2 (after (.setParam n2 (.fields { id := 7, value := 0 })) s)).map Record.kindCode = [6, 6, 1]
      ∧ (lane2 (after (.setParam n2 (.fields { id := 7, value := 1 })) s)).map Record.kindCode = [6, 1]
      ∧ (lane2 (after (.setParam n2 (.fields { id := 25, value := 0 })) d)).map Record.kindCode = [5, 1]
      ∧ (lane2 (after (.setParam n2 (.fields { id := 26, value := 0 })) d)).map Record.kindCode = [1] := by decide

theorem test_witness_ProbesAreWrittenAndRead : running.held = false ∧ writeP3.probe.toNat < 32
    ∧ WriteProbeArgs.entry writeP3 = some p3 ∧ WriteProbeArgs.sameStopped writeP3 car.probes[(3 : Fin 32)] = true
    ∧ WriteProbeArgs.sameStopped { writeP3 with group := 4 } car.probes[(3 : Fin 32)] = false
    ∧ WriteProbeArgs.entry { writeP3 with group := 8 } = none := by decide

/-- Each range of a probe entry at its end and one beyond it (R73, R74). -/
theorem test_witness_ProbesAreWrittenAndRead_ranges :
    let taken := fun a => (WriteProbeArgs.entry a).isSome
    let gate := fun role start width band =>
      taken { writeP3 with gates := writeP3.gates.set (2 : Fin 4) (GateArgs.mk role start width 0 band) }
    [taken { writeP3 with group := 7 }, taken { writeP3 with offset := -4096 }, taken { writeP3 with offset := 4095 },
        taken { writeP3 with shift := -1024 }, taken { writeP3 with shift := 1023 }, gate 3 65535 1 7,
        gate 0 1 65535 0].all id = true
      ∧ [taken { writeP3 with offset := -4097 }, taken { writeP3 with offset := 4096 },
        taken { writeP3 with shift := -1025 }, taken { writeP3 with shift := 1024 }, gate 4 0 1 0, gate 0 0 0 0,
        gate 0 65535 2 0, gate 0 0 1 8].any id = false := by decide

theorem test_witness_PatternsAreWrittenAndRead : running.held = false ∧ writePattern5.pattern.toNat < 32
    ∧ WritePatternArgs.entry writePattern5 = some pattern5
    ∧ WritePatternArgs.entry { writePattern5 with spread := 4 } = none := by decide

/-- Each range of a pattern entry at its end and one beyond it; an empty band mask in a DROP and a FLAW term (R127). -/
theorem test_witness_PatternsAreWrittenAndRead_ranges :
    let taken := fun a => (WritePatternArgs.entry a).isSome
    let term := fun group kind band count =>
      taken { writePattern5 with terms := [TermArgs.mk group kind band count 0] }
    let terms := fun n => taken { writePattern5 with terms := List.replicate n (TermArgs.mk 0 0 1 1 0) }
    [taken { writePattern5 with spread := 3 }, taken { writePattern5 with minRun := 1 },
        taken { writePattern5 with minRun := 64 }, taken { writePattern5 with cls := 15 },
        taken { writePattern5 with spray := 0 }, taken { writePattern5 with spray := 7 }, terms 1, terms 4,
        term 7 1 0 15].all id = true
      ∧ [taken { writePattern5 with minRun := 0 }, taken { writePattern5 with minRun := 65 },
        taken { writePattern5 with cls := 16 }, taken { writePattern5 with spray := 8 }, terms 0, terms 5,
        term 8 0 1 1, term 0 2 1 1, term 0 0 0 1, term 0 0 1 0, term 0 0 1 16].any id = false := by decide

theorem test_witness_StepsAndSpraysAreWrittenAndRead : running.held = false
    ∧ (WriteStepArgs.mk 15 9 100).step.toNat < 16 ∧ ¬ (WriteStepArgs.mk 16 9 100).step.toNat < 16
    ∧ running.run.state ≠ .stopped ∧ (WriteStepArgs.mk 0 9 100).probeSet = (running.seq.steps[(0 : Fin 16)]).probeSet
    ∧ sprayOf 7 = some 6 ∧ sprayOf 8 = none := by decide

/-- An end at the close tick of K is past, one tick on is ahead. -/
theorem test_witness_ZoneIsAdded : running.held = false ∧ running.run.state ≠ .stopped
    ∧ (running.windows.get .a).k * (running.params.cellTicks : Int) = 119608
    ∧ running.zones.zones.length ≤ 17 ∧ zoned.zones.zones.length ≤ 17 := by decide

theorem test_witness_ZonesAreCancelledAndListed : zoned.held = false
    ∧ (∀ z ∈ zoned.zones.zones, z.id ≠ 9) ∧ zoned.zones.zones.map Zone.id = [0]
    ∧ (after (.pauseRun n2 (.fields ())) running).zones.zones.map Zone.kind = [.suspend]
    ∧ zoned.zones.zones.map Zone.kind = [.mute] := by decide

theorem test_witness_CellsAndStatusAreRead : (evaluating run2).held = false
    ∧ ((evaluating run2).windows.get .a).k = 29928
    ∧ ((evaluating run2).windows.get .a).tail.map ClosedCell.index =
      [29921, 29922, 29923, 29924, 29925, 29926, 29927] := by decide

theorem test_witness_CoordinatesStayInRange : coordinatesAgree running ∧ running.pending = [] := by
  refine ⟨⟨by decide, by decide, by decide, by decide, by decide⟩, by decide⟩

theorem test_witness_ValvesStayWithPhase :
    let s := painting .hold mark (colourValve mark)
    valvesAgree s ∧ step (s.withPending [.holdEnd .a]) = .next (after (.holdEnd .a) s) := by
  refine ⟨⟨⟨by decide, by decide, by decide, by decide⟩, ⟨by decide, rfl⟩⟩, rfl⟩

/-- A window with entered records and, beside it, an empty one. -/
theorem test_witness_WindowsStaySound :
    let s := after (.report .a 61 3 echoes) orderedOnce
    windowsSound s ∧ tailsAligned s ∧ s.windows.a.cells.length = 2 := by
  refine ⟨⟨by decide, by decide, ?_, ?_⟩, ⟨⟨by decide, by decide⟩, ⟨by decide, by decide⟩⟩, by decide⟩
  · have h : ∀ x ∈ (after (.report .a 61 3 echoes) orderedOnce).windows.a.cells, ∀ g : Fin 8,
        (x.groups[g]).hits ≤ 15 ∧ (x.groups[g]).drops ≤ 15 ∧
          ((x.groups[g]).hits = 0 → (x.groups[g]).bands = 0 ∧ (x.groups[g]).peak = 0) := by decide
    exact h
  · intro x h; cases h

theorem test_witness_ZonesAndQueuesStayOrdered : zonesSound zoned ∧ queuesSound due
    ∧ due.marker.engines.a.queue.length = 2 ∧ zoned.zones.zones.length = 1 := by
  refine ⟨⟨by decide, by decide, List.pairwise_singleton _ _, ?_⟩, ⟨⟨by decide, by decide⟩, by decide, by decide⟩, by decide, by decide⟩
  intro z h
  have : zoned.zones.zones = [_] := rfl
  rw [this, List.mem_singleton] at h; subst h
  refine ⟨by decide, by decide, ?_⟩
  show (122400 : Int) ≤ 122480 ∧ (122480 : Int) ≤ tickMax; decide

theorem test_witness_RecordsStayInTheirSlots : recordsInSlots orderedOnce
    ∧ (orderedOnce.seq.ring[(61 : Fin 64)]).outstanding = true := by
  refine ⟨?_, by decide⟩
  have h : ∀ i : Fin 64, (orderedOnce.seq.ring[i]).outstanding = true →
      ringSlot (orderedOnce.seq.ring[i]).tag = i := by decide +kernel
  exact h

theorem test_witness_QueueMemoryStaysDivided : queueMemorySound oneRecord
    ∧ oneRecord.link.lanes.n2.records.length = 1 := by
  refine ⟨⟨by decide, by decide, by decide, by decide, by decide, by decide, by decide, by decide, by decide⟩, by decide⟩

theorem test_witness_OnlyWritesChangeConfiguration :
    exec .standstillSet marking = .next (after .standstillSet marking)
      ∧ after .standstillSet marking ≠ marking := ⟨rfl, by decide⟩

theorem test_witness_RunStateFollowsItsTable :
    exec (.startRun n2 (.fields ())) car = .next (after (.startRun n2 (.fields ())) car)
      ∧ (after (.startRun n2 (.fields ())) car).run.state ≠ car.run.state := ⟨rfl, by decide⟩

end Sys2Proof.Tests
end

section
/-! PROOFS. The front-end lanes (chapter 4): how a READY is judged (R58). -/
namespace Sys2Proof.Machine

/-- A READY's arm of the dispatch, in a state that RESET_N does not hold. -/
theorem exec_ready_free {s : State} (h : s.held = false) (r : Rail) (number : Byte) :
    exec (.ready r number) s = .next (readyReceived r number s) :=
  congrArg Host.Outcome.next (unlessHeld_free h (readyReceived r number))

/-- The three tests of R58. -/
theorem Lane.takesReady_iff (l : Lane) (number : Byte) :
    l.takesReady number = true ↔ l.state = .setup ∧ l.setupFinal = true ∧ l.setupNumber = number := by
  simp [Lane.takesReady, and_assoc]

/-- A READY that is taken brings the lane to OK; the EVENT's old state is SETUP and its number the READY's, as the
tests of R58 fix them. -/
theorem readyReceived_taken {r : Rail} {number : Byte} {s : State}
    (h : (s.lanes.get r).takesReady number = true) :
    readyReceived r number s =
      (s.setLane r { s.lanes.get r with state := .ok, timer := 0, incomplete := 0 }).event
        (.laneState r .ok .setup number .ready) := by
  obtain ⟨hstate, -, hnumber⟩ := (Lane.takesReady_iff _ _).mp h
  simp only [readyReceived, h, if_true, State.changeLane, Lane.ready, hstate, hnumber]

/-- A READY that fails a test of R58 changes its lane's unexpected tally alone. -/
theorem readyReceived_discarded {r : Rail} {number : Byte} {s : State}
    (h : ¬ (s.lanes.get r).takesReady number = true) :
    readyReceived r number s =
      s.setLane r { s.lanes.get r with unexpected := min ((s.lanes.get r).unexpected + 1) 65535 } :=
  if_neg h

/-- Settles O15: the READY is taken or discarded as `Lane.takesReady` says, which is R58's three tests. -/
theorem readyIsJudged : Obligations.ReadyIsJudged := by
  intro r number s hheld
  rw [exec_ready_free hheld]
  split
  case isTrue htests =>
    rw [readyReceived_taken ((Lane.takesReady_iff _ _).mpr htests)]
  case isFalse htests =>
    rw [readyReceived_discarded (mt (Lane.takesReady_iff _ _).mp htests)]

end Sys2Proof.Machine
end

section
/-! PROOFS. Placement (chapter 5): the band of a depth (R83), the six stages of a hit (R78–R84), and a hit that leaves
the 32-bit range (R80, R99). -/
namespace Sys2Proof.Machine

/-- The boundaries BAND1 to BAND7, listed by their numbers. -/
theorem bands_toList (bands : Vector Nat 7) : bands.toList = (List.finRange 7).map fun b => bands[b] := by
  rw [← List.ofFn_eq_map, ← Vector.toList_ofFn]
  exact congrArg Vector.toList (Vector.ofFn_getElem (xs := bands)).symm

/-- The band counts the numbers of the boundaries at or below the depth, so that two equal boundaries count twice
(R83). -/
theorem bandOf_eq_count (bands : Vector Nat 7) (d : Nat) :
    bandOf bands d = ((List.finRange 7).filter fun b => decide (bands[b] ≤ d)).length := by
  rw [bandOf, bands_toList, List.filter_map, List.length_map]
  rfl

/-- A position outside the signed 32-bit range (R80). -/
theorem inTickRange_eq_false_iff (x : Int) : inTickRange x = false ↔ x < tickMin ∨ tickMax < x := by
  simp only [inTickRange, Bool.and_eq_false_iff, decide_eq_false_iff_not, not_le]

/-- A hit outside the range is not judged by its window; the window's misplaced tally alone is raised (R80, R99). -/
theorem handOn_misplaced {s : State} {h : PlacedHit} (hout : h.x < tickMin ∨ tickMax < h.x) :
    s.handOn h = s.setWindow h.rail { s.windows.get h.rail with
      misplaced := min ((s.windows.get h.rail).misplaced + 1) 65535 } := by
  have hrange : inTickRange h.x = false := (inTickRange_eq_false_iff h.x).mpr hout
  rw [State.handOn, hrange]
  rfl

/-- Settles O20. Position, cell, depth and amplitude are the stages of `State.placeFlaw` and `State.placeDrop` as they
stand; the band is counted by `bandOf_eq_count`, and a misplaced hit follows `handOn_misplaced`. -/
theorem hitsArePlaced : Obligations.HitsArePlaced := by
  intro r p g x fp s
  have hband : (s.placeFlaw r p g x fp).band =
      ((List.finRange 7).filter fun b => decide (s.params.bands[b] ≤ (s.placeFlaw r p g x fp).depth)).length :=
    bandOf_eq_count s.params.bands _
  exact ⟨rfl, rfl, rfl, hband, rfl, rfl, rfl, rfl, rfl, fun _ hout => handOn_misplaced hout⟩

end Sys2Proof.Machine
end

section
/-! PROOFS. The step: what an edge of the clock ages, what an idle step does, and the packaging of an invariant as a
property that every command and every edge keeps. -/
namespace Sys2Proof.Machine

/-! ## The front command -/

/-- Settles O1: `step` matches on the queue. -/
theorem frontCommandIsExecuted : Obligations.FrontCommandIsExecuted := fun _ _ _ => rfl

/-! ## An edge of the clock -/

/-- What an edge of the clock may change (R1, R4, R155, R165). -/
structure EdgeAges (s t : State) : Prop where
  samples : t.samples = s.samples + 1
  changes : changesOnly [.odo, .seq, .lanes, .marker, .link, .samples, .pending] s t
  odo : { t.odo with
      enc1 := s.odo.enc1, enc2 := s.odo.enc2, standstillTimer := s.odo.standstillTimer
      liftTimer := s.odo.liftTimer } = s.odo
  accepted : ∀ e : Encoder, (t.odo.quadrature e).a.accepted = (s.odo.quadrature e).a.accepted
    ∧ (t.odo.quadrature e).b.accepted = (s.odo.quadrature e).b.accepted
  seq : { t.seq with keepAliveTimer := s.seq.keepAliveTimer, stepTimer := s.seq.stepTimer } = s.seq
  lanes : ∀ r : Rail, { t.lanes.get r with timer := (s.lanes.get r).timer } = s.lanes.get r
  engines : ∀ r : Rail, t.marker.engines.get r = s.marker.engines.get r
    ∨ t.marker.engines.get r = (s.marker.engines.get r).aged
  sprays : t.marker.sprays = s.marker.sprays
  lead : t.marker.lead = s.marker.lead
  link : { t.link with receiver := s.link.receiver, field := s.link.field } = s.link

/-- An engine's ageing raises the time counts of the mark it paints. -/
theorem Engine.aged_cases (e : Engine) : e.aged = e ∨ ∃ p m, e.state = .painting p m
    ∧ e.aged = { e with state := .painting p { m with
        elapsed := m.elapsed + 1, dashElapsed := m.dashElapsed + 1, holdCount := m.holdCount + 1 } } := by
  unfold Engine.aged
  split
  · exact .inr ⟨_, _, ‹_›, rfl⟩
  · exact .inl rfl

theorem InputFilter.sampled_accepted (f : InputFilter) (level : Bool) (n : Nat) :
    (f.sampled level n).accepted = f.accepted := by
  unfold InputFilter.sampled
  split
  · rfl
  · split <;> rfl

theorem Lane.aged_eq (l : Lane) : l.aged = { l with timer := l.aged.timer } := by
  unfold Lane.aged
  split <;> rfl

/-- A sampling of the inputs changes the run counts of the filters alone (R1). -/
theorem sampleInputs_ages (s : State) (n : Nat) (h : n = s.samples + 1) :
    EdgeAges s { s.sampleInputs with samples := n } where
  samples := h
  changes := by intro b; cases b <;> simp [Block.same, State.sampleInputs]
  odo := rfl
  accepted e := by
    cases e <;> exact ⟨InputFilter.sampled_accepted _ _ _, InputFilter.sampled_accepted _ _ _⟩
  seq := rfl
  lanes _ := rfl
  engines _ := .inl rfl
  sprays := rfl
  lead := rfl
  link := rfl

/-- The time bases age timers and marks after the inputs are sampled (R4, R155). -/
theorem EdgeAges.baseEdges {s t : State} (h : EdgeAges s t) (hm : t.marker = s.marker) :
    EdgeAges s t.baseEdges.1 := by
  have hage : ∀ u : State, EdgeAges s u → EdgeAges s u.age1ms := fun u hu =>
    { samples := hu.samples
      changes := changesOnly_trans hu.changes (by intro b; cases b <;> simp [Block.same, State.age1ms])
      odo := hu.odo
      accepted := hu.accepted
      seq := hu.seq
      lanes := fun r => by
        have hget : u.age1ms.lanes.get r = (u.lanes.get r).aged := by cases r <;> rfl
        rw [hget, Lane.aged_eq]
        exact hu.lanes r
      engines := hu.engines
      sprays := hu.sprays
      lead := hu.lead
      link := hu.link }
  have hage10 : EdgeAges s t.age10us :=
    { samples := h.samples
      changes := changesOnly_trans h.changes (by intro b; cases b <;> simp [Block.same, State.age10us])
      odo := h.odo
      accepted := h.accepted
      seq := h.seq
      lanes := h.lanes
      engines := fun r => .inr (by cases r <;> simp [State.age10us, PerRail.get, hm])
      sprays := h.sprays
      lead := h.lead
      link := h.link }
  have hten : EdgeAges s (if t.endsPeriod 80 then t.age10us else t) := by
    split
    · exact hage10
    · exact h
  unfold State.baseEdges
  generalize (if t.endsPeriod 80 then t.age10us else t) = u at hten
  dsimp only
  split
  · exact hage u hten
  · exact hten

/-- The link's bit clock moves the receiver and the command field alone (R165, R167). -/
theorem EdgeAges.linkEdge {s t : State} (h : EdgeAges s t) : EdgeAges s t.linkEdge.1 := by
  have hbit : ∀ bit : Bool, { (t.link.readBit bit).1 with receiver := s.link.receiver, field := s.link.field }
      = s.link := by
    intro bit
    unfold LinkState.readBit
    dsimp only
    split <;> exact h.link
  unfold State.linkEdge
  split
  · exact h
  · split
    · exact
        { samples := h.samples
          changes := changesOnly_trans h.changes (changesOnly_mono (setLink_changes _ _) (by simp))
          odo := h.odo
          accepted := h.accepted
          seq := h.seq
          lanes := h.lanes
          engines := h.engines
          sprays := h.sprays
          lead := h.lead
          link := hbit _ }
    · exact h

theorem withPending_changes (s : State) (q : List Instr) : changesOnly [.pending] s (s.withPending q) := by
  intro b; cases b <;> simp [Block.same, State.withPending]

/-- An edge samples the inputs, ages the time bases, moves the link's bit clock and queues what falls due. -/
theorem edge_eq (s : State) : ∃ q, s.edge =
    ({ s.sampleInputs with samples := s.samples + 1 } : State).baseEdges.1.linkEdge.1.withPending q := by
  unfold State.edge
  generalize ({ s.sampleInputs with samples := s.samples + 1 } : State) = t
  dsimp only
  obtain ⟨u, timed⟩ := t.baseEdges
  dsimp only
  obtain ⟨v, link⟩ := u.linkEdge
  exact ⟨_, rfl⟩

/-- What falls due joins the queue and nothing else. -/
theorem EdgeAges.withPending {s t : State} (h : EdgeAges s t) (q : List Instr) : EdgeAges s (t.withPending q) where
  samples := h.samples
  changes := changesOnly_trans h.changes (changesOnly_mono (withPending_changes t q) (by simp))
  odo := h.odo
  accepted := h.accepted
  seq := h.seq
  lanes := h.lanes
  engines := h.engines
  sprays := h.sprays
  lead := h.lead
  link := h.link

/-- One edge of the sample clock. -/
theorem edge_ages (s : State) : EdgeAges s s.edge := by
  obtain ⟨q, hedge⟩ := edge_eq s
  rw [hedge]
  exact (((sampleInputs_ages s _ rfl).baseEdges rfl).linkEdge).withPending q

/-! ## An idle step -/

theorem nextMessage_some {p q : Pins} {i : Instr} (h : p.nextMessage = some (i, q)) :
    ∃ r m rest, p.received.get r = m :: rest ∧ i = laneCommand r m
      ∧ q = { p with received := p.received.set r rest } := by
  unfold Pins.nextMessage at h
  split at h
  case h_1 m rest ha =>
    simp only [Option.some.injEq, Prod.mk.injEq] at h
    exact ⟨.a, m, rest, ha, h.1.symm, h.2.symm⟩
  case h_2 m rest ha hb =>
    simp only [Option.some.injEq, Prod.mk.injEq] at h
    exact ⟨.b, m, rest, hb, h.1.symm, h.2.symm⟩
  case h_3 => cases h

/-- An idle step holds, queues an event, takes up a lane message, or lives through an edge. -/
theorem idle_cases (s : State) :
    (s.held = true ∧ s.idle = s)
      ∨ (s.held = false ∧ ∃ i, s.idle = { s with pending := [i] })
      ∨ (s.held = false ∧ ∃ r m rest, s.pins.received.get r = m :: rest ∧ s.idle = { s with
          pins := { s.pins with received := s.pins.received.set r rest }, pending := [laneCommand r m] })
      ∨ (s.held = false ∧ s.idle = s.edge) := by
  unfold State.idle
  split
  case isTrue hheld => exact .inl ⟨hheld, rfl⟩
  case isFalse hheld =>
    have hfree : s.held = false := by simpa using hheld
    split
    case h_1 i _ => exact .inr (.inl ⟨hfree, i, rfl⟩)
    case h_2 =>
      split
      case h_1 i p hmsg =>
        obtain ⟨r, m, rest, hr, rfl, rfl⟩ := nextMessage_some hmsg
        exact .inr (.inr (.inl ⟨hfree, r, m, rest, hr, rfl⟩))
      case h_2 => exact .inr (.inr (.inr ⟨hfree, rfl⟩))

theorem step_nil {s t : State} (hq : s.pending = []) (h : step s = .next t) : t = s.idle := by
  unfold step at h
  rw [hq] at h
  exact (Host.Outcome.next.inj h).symm

/-- Settles O2: the four cases of `State.idle`, the last by `edge_ages`. -/
theorem idleStepOnlyAges : Obligations.IdleStepOnlyAges := by
  intro s t hq h
  obtain rfl := step_nil hq h
  rcases idle_cases s with hheld | hqueued | hmessage | ⟨hfree, hedge⟩
  · exact .inl hheld
  · exact .inr (.inl hqueued)
  · exact .inr (.inr (.inl hmessage))
  · have hage := edge_ages s
    rw [hedge]
    refine .inr (.inr (.inr ⟨hfree, hage.samples, hage.changes, hage.odo, hage.accepted, hage.seq, hage.lanes,
      fun r => ?_, hage.sprays, hage.lead, hage.link⟩))
    rcases hage.engines r with hsame | haged
    · exact .inl hsame
    · rcases (s.marker.engines.get r).aged_cases with hstay | ⟨p, m, hp, hm⟩
      · exact .inl (haged.trans hstay)
      · exact .inr ⟨p, m, hp, haged.trans hm⟩

/-! ## Invariants -/

/-- A property of the state that does not read the input pins or the queue of commands. -/
def readsNoQueue (p : State → Prop) : Prop := ∀ s t : State, changesOnly [.pins, .pending] s t → p s → p t

/-- A property that every command and every edge of the clock keeps is kept by every step. -/
theorem kept_of_exec_edge {p : State → Prop} (hqueue : readsNoQueue p)
    (hexec : ∀ (i : Instr) (s t : State), p s → exec i s = .next t → p t)
    (hedge : ∀ s t : State, EdgeAges s t → p s → p t) : keptByEveryStep p := by
  intro s t hs h
  cases hpend : s.pending with
  | nil =>
    obtain rfl := step_nil hpend h
    rcases idle_cases s with ⟨-, e⟩ | ⟨-, i, e⟩ | ⟨-, r, m, rest, -, e⟩ | ⟨-, e⟩ <;> rw [e]
    · exact hs
    · exact hqueue s _ (by intro b; cases b <;> simp [Block.same]) hs
    · exact hqueue s _ (by intro b; cases b <;> simp [Block.same]) hs
    · exact hedge s _ (edge_ages s) hs
  | cons i rest =>
    have hexecuted : exec i (s.withPending rest) = .next t := by
      unfold step at h
      rw [hpend] at h
      exact h
    exact hexec i _ t (hqueue s _ (changesOnly_mono (withPending_changes s rest) (by simp)) hs) hexecuted

/-- What holds of a command's next state holds of every state the command answers with. -/
theorem exec_elim {p : State → Prop} {i : Instr} {s t u : State} (h : exec i s = .next t)
    (hu : exec i s = .next u) (hp : p u) : p t := by
  rw [h] at hu
  cases hu
  exact hp

theorem unlessHeld_keeps {p : State → Prop} {s : State} {f : State → State} (hs : p s) (hf : p (f s)) :
    p (s.unlessHeld f) := by
  unfold State.unlessHeld
  split
  · exact hs
  · exact hf

/-- A master command keeps what the taking of its frame, a REPLY and its owner keep. -/
theorem command_keeps {α : Type} {p : State → Prop} {s : State} {m : Sender} {code : Byte} {ps : Params α}
    {owner : α → State → State} (hs : p s) (htake : p s → p (s.take m code))
    (hreply : ∀ (t : State) (x : Result), p t → p (t.refuse m code x))
    (howner : ∀ (a : α) (t : State), p t → p (owner a t)) : p (s.command m code ps owner) := by
  refine unlessHeld_keeps hs ?_
  cases ps with
  | wrongLength n => exact hreply _ _ (htake hs)
  | fields a => exact howner a _ (htake hs)

/-- A block a command does not touch is as it was. -/
theorem exec_same {i : Instr} {s t : State} (h : exec i s = .next t) (b : Block) (hb : b ∉ touches i) : b.same s t :=
  changesOnly_same (exec_changes i s t h) b hb

end Sys2Proof.Machine
end

section
/-! PROOFS. The coordinates of the carriage (R6, R7): which commands move them, and that CP, HW, LIMIT and RETRACE stay in
agreement. -/
namespace Sys2Proof.Machine

/-! ## Commands that leave the coordinates where they are -/

/-- CP, HW, LIMIT and RETRACE are the same in two states. -/
def samePlace (s t : State) : Prop :=
  t.odo.cp = s.odo.cp ∧ t.odo.hw = s.odo.hw ∧ t.odo.limit = s.odo.limit ∧ t.odo.retrace = s.odo.retrace

namespace SamePlace

theorem of_odo {s t : State} (h : t.odo = s.odo) : samePlace s t := by
  unfold samePlace
  rw [h]
  exact ⟨rfl, rfl, rfl, rfl⟩

theorem trans {s t u : State} (h : samePlace s t) (k : samePlace t u) : samePlace s u := by
  obtain ⟨h1, h2, h3, h4⟩ := h
  obtain ⟨k1, k2, k3, k4⟩ := k
  exact ⟨k1.trans h1, k2.trans h2, k3.trans h3, k4.trans h4⟩

theorem keeps {s t : State} (h : samePlace s t) (hs : coordinatesAgree s) : coordinatesAgree t := by
  obtain ⟨h1, h2, h3, h4⟩ := h
  unfold coordinatesAgree
  rw [h1, h2, h3, h4]
  exact hs

theorem eventIf (s : State) (c : Bool) (e : Event) : samePlace s (s.eventIf c e) := of_odo (eventIf_odo s c e)

theorem dueTest (s : State) (r : Rail) : samePlace s (s.dueTest r) := of_odo (dueTest_other s r).2.1

theorem dueTests (s : State) : samePlace s s.dueTests := trans (dueTest s .a) (dueTest _ .b)

theorem turn (s : State) (e : Encoder) (q : Quadrature) : samePlace s (s.turn e q) := by
  cases e <;> exact ⟨rfl, rfl, rfl, rfl⟩

theorem illegalTransition (e : Encoder) (s : State) : samePlace s (illegalTransition e s) := by
  have hturn := turn s e (s.odo.quadrature e).bothTurned
  unfold Machine.illegalTransition
  dsimp only
  split
  · refine trans hturn ?_
    cases e <;> exact ⟨rfl, rfl, rfl, rfl⟩
  · exact hturn

theorem settleKeepAlive (s : State) : samePlace s s.settleKeepAlive :=
  of_odo (changesOnly_same (settleKeepAlive_changes s) .odo (by simp))

theorem standstillSet (s : State) : samePlace s (standstillSet s) := by
  unfold Machine.standstillSet
  split
  · exact of_odo rfl
  · have hlead : ∀ u : State, samePlace u u.updateLead := fun u => of_odo rfl
    refine trans (trans (trans ?_ (settleKeepAlive _)) (hlead _)) (dueTests _)
    exact ⟨rfl, rfl, rfl, rfl⟩

theorem speedIntervalEnd (s : State) : samePlace s (speedIntervalEnd s) :=
  trans (t := (s.setOdo { s.odo with speed := speedOf s.odo.intervalCount, intervalCount := 0 }).updateLead)
    ⟨rfl, rfl, rfl, rfl⟩ (dueTests _)

theorem failover (s : State) : samePlace s s.failover := by
  unfold State.failover
  split
  · exact trans (t := s.setOdo { s.odo with source := s.odo.chosenSource }) ⟨rfl, rfl, rfl, rfl⟩ (eventIf _ _ _)
  · exact of_odo rfl

theorem decideSlip (s : State) : samePlace s s.decideSlip := by
  unfold State.decideSlip
  split
  · exact trans (t := (s.setOdo { s.odo with slip := true }).event _) ⟨rfl, rfl, rfl, rfl⟩ (failover _)
  · split <;> exact ⟨rfl, rfl, rfl, rfl⟩

theorem slipWindowEnd (s : State) : samePlace s (slipWindowEnd s) := by
  have hjudge : samePlace s s.judgeSlip := by
    unfold State.judgeSlip
    split
    · exact of_odo rfl
    · refine trans ?_ (decideSlip _)
      unfold Odometry.judgeWindow
      split <;> exact ⟨rfl, rfl, rfl, rfl⟩
  exact trans (trans hjudge (eventIf _ _ _)) ⟨rfl, rfl, rfl, rfl⟩

theorem liftSample (v : Bool) (s : State) : samePlace s (liftSample v s) := by
  have haccept : ∀ u : State, samePlace u (u.acceptLift v) := by
    intro u
    have hstop : ∀ w : State, samePlace w w.markStopping := fun w =>
      of_odo (changesOnly_same (markStopping_changes w) .odo (by simp))
    have hjudge : ∀ w : State, samePlace w ((w.judgeSuspension .lift .lift).settleKeepAlive) := fun w =>
      trans (of_odo (changesOnly_same (judgeSuspension_changes w _ _) .odo (by simp))) (settleKeepAlive _)
    have hlift : samePlace u ((u.setOdo { u.odo with lifted := v }).event (.lift v)) := ⟨rfl, rfl, rfl, rfl⟩
    unfold State.acceptLift
    dsimp only
    split
    · exact trans (trans hlift (hstop _)) (hjudge _)
    · exact trans hlift (hjudge _)
  unfold Machine.liftSample
  dsimp only
  split
  · refine trans ?_ (haccept _)
    exact ⟨rfl, rfl, rfl, rfl⟩
  · exact ⟨rfl, rfl, rfl, rfl⟩

theorem clearSlip (s : State) : samePlace s s.clearSlip := by
  unfold samePlace
  rw [clearSlip_odo]
  exact ⟨rfl, rfl, rfl, rfl⟩

theorem returnSource (s : State) (c : SourceCause) : samePlace s (s.returnSource c) := by
  unfold samePlace
  rw [returnSource_odo]
  exact ⟨rfl, rfl, rfl, rfl⟩

theorem setParam (h : Sender) (a : SetParamArgs) (s : State) : samePlace s (setParam h a s) := by
  have hwritten : ∀ (u : State) (n : Nat), samePlace u (u.paramWritten n) := by
    intro u n
    unfold State.paramWritten
    split
    · unfold State.modeWritten
      split
      · exact trans (clearSlip u) (returnSource _ _)
      · exact clearSlip u
    · exact dueTest _ _
    · exact dueTest _ _
    · exact of_odo rfl
  unfold Machine.setParam
  split
  · exact of_odo rfl
  · rename_i r value _
    exact trans (t := (s.setParams (s.params.write a.id.toNat value)).bumpGeneration) (of_odo rfl)
      (trans (hwritten _ _) (of_odo rfl))

end SamePlace

/-! ## Commands that move them -/

theorem cpChanged_odo (s : State) : s.cpChanged.odo = s.odo := changesOnly_same (cpChanged_changes s) .odo (by simp)

/-- The Odometry Unit after a source tick (R5–R7, R9). -/
theorem sourceTick_odo (s : State) (d : Direction) : (s.sourceTick d).odo =
    { s.odo.sourceTick d with
      limit := limitOf (movedCp s.odo.cp d)
      retrace := decide (movedCp s.odo.cp d < max s.odo.hw (movedCp s.odo.cp d)), standstill := false } := by
  unfold State.sourceTick
  dsimp only
  split
  · rw [judgeTick_odo]; rfl
  · rw [cpChanged_odo, judgeTick_odo]; rfl

theorem movedCp_range (cp : Int) (d : Direction) : tickMin ≤ movedCp cp d ∧ movedCp cp d ≤ tickMax := by
  unfold movedCp clampInt
  simp only [tickMin, tickMax]
  omega

/-- A source tick leaves CP, HW, LIMIT and RETRACE in agreement (R6, R7). -/
theorem sourceTick_agrees {s : State} (hs : coordinatesAgree s) (d : Direction) :
    coordinatesAgree (s.sourceTick d) := by
  obtain ⟨-, -, hmax, -, -⟩ := hs
  obtain ⟨hlo, hhi⟩ := movedCp_range s.odo.cp d
  unfold coordinatesAgree
  rw [sourceTick_odo]
  exact ⟨hlo, le_max_right _ _, max_le hmax hhi, rfl, rfl⟩

theorem encoderTick_agrees {s : State} (hs : coordinatesAgree s) (e : Encoder) (d : Direction) :
    coordinatesAgree (encoderTick e d s) := by
  have hcounted : ∀ u : State, samePlace u (u.setOdo (u.odo.addDelta e d)) := by
    intro u
    cases e <;> exact ⟨rfl, rfl, rfl, rfl⟩
  have hticked := SamePlace.keeps (SamePlace.trans (SamePlace.turn s e ((s.odo.quadrature e).ticked d))
    (hcounted _)) hs
  unfold encoderTick
  dsimp only
  split
  · exact sourceTick_agrees hticked d
  · exact hticked

/-- Of START_RUN only its odometry part reaches the Odometry Unit (R24). -/
theorem startRun_odo (s : State) (h : Sender) : (s.startRun h).odo = s.startOdometry.odo := by
  have hlane : ∀ (u : State) (r : Rail), (u.startLane r).odo = u.odo := fun u r =>
    changesOnly_same (startLane_lanes u r).2.2 .odo (by simp)
  have hjudge : ∀ u : State, (u.judgeSuspension .runStart .endRun).odo = u.odo := fun u =>
    changesOnly_same (judgeSuspension_changes u _ _) .odo (by simp)
  have hsettle : ∀ u : State, u.settleKeepAlive.odo = u.odo := fun u =>
    changesOnly_same (settleKeepAlive_changes u) .odo (by simp)
  unfold State.startRun
  dsimp only
  rw [hsettle, hlane, hlane, hjudge]
  rfl

theorem startRun_agrees {s : State} (hs : coordinatesAgree s) (h : Sender) : coordinatesAgree (s.startRun h) := by
  obtain ⟨hmin, hle, hmax, hlimit, -⟩ := hs
  unfold coordinatesAgree
  rw [startRun_odo, (startOdometry_spec s).1]
  exact ⟨hmin, le_refl _, hle.trans hmax, hlimit, (decide_eq_false (lt_irrefl s.odo.cp)).symm⟩

theorem followLimit_odo (s : State) : s.followLimit.odo = { s.odo with limit := limitOf s.odo.cp } := by
  unfold State.followLimit
  dsimp only
  split <;> simp

/-- What a REBASE that is taken has checked of CP and HW (R15). -/
theorem canRebase_coordinates {s : State} {delta : Int} (h : s.canRebase delta = true) :
    inTickRange (s.odo.cp - delta) = true ∧ inTickRange (s.odo.hw - delta) = true := by
  unfold State.canRebase at h
  rw [List.all_eq_true] at h
  exact ⟨h _ (by simp [State.coordinates]), h _ (by simp [State.coordinates])⟩

theorem rebase_agrees {s : State} (hs : coordinatesAgree s) (h : Sender) (delta : Word32) :
    coordinatesAgree (rebase h delta s) := by
  unfold rebase
  split
  · exact hs
  · split
    case isTrue hcan =>
      obtain ⟨hcp, hhw⟩ := canRebase_coordinates hcan
      obtain ⟨-, hle, -, -, hretrace⟩ := hs
      simp only [inTickRange, Bool.and_eq_true, decide_eq_true_eq] at hcp hhw
      unfold coordinatesAgree
      simp only [State.reply_odo, followLimit_odo, State.moveBy, State.setMarker_odo, State.setZones_odo,
        State.setOdo_odo]
      refine ⟨hcp.1, by omega, hhw.2, trivial, ?_⟩
      rw [hretrace]
      exact decide_eq_decide.mpr (by omega)
    case isFalse => exact hs

/-! ## Every command, every step -/

theorem resetRelease_agrees {l : InputLevels} {n : Nat} {q : List Instr} : coordinatesAgree (State.cold l n q) := by
  simp [coordinatesAgree, State.cold, Odometry.cold, limitOf]

theorem exec_agrees (i : Instr) (s t : State) (hs : coordinatesAgree s) (h : exec i s = .next t) :
    coordinatesAgree t := by
  cases i with
  | resetRelease l => exact exec_elim h rfl resetRelease_agrees
  | encoderTick e d => exact exec_elim h rfl (unlessHeld_keeps hs (encoderTick_agrees hs e d))
  | illegalTransition e =>
    exact exec_elim h rfl (unlessHeld_keeps hs (SamePlace.keeps (SamePlace.illegalTransition e s) hs))
  | standstillSet => exact exec_elim h rfl (unlessHeld_keeps hs (SamePlace.keeps (SamePlace.standstillSet s) hs))
  | speedIntervalEnd => exact exec_elim h rfl (unlessHeld_keeps hs (SamePlace.keeps (SamePlace.speedIntervalEnd s) hs))
  | slipWindowEnd => exact exec_elim h rfl (unlessHeld_keeps hs (SamePlace.keeps (SamePlace.slipWindowEnd s) hs))
  | liftSample v => exact exec_elim h rfl (unlessHeld_keeps hs (SamePlace.keeps (SamePlace.liftSample v s) hs))
  | startRun m p =>
    refine exec_elim h rfl (command_keeps hs id (fun _ _ => id) fun _ u hu => ?_)
    unfold startRun
    split
    · exact hu
    · split
      · exact hu
      · exact SamePlace.keeps (SamePlace.of_odo (State.reply_odo _ _ _ _ _)) (startRun_agrees hu m)
  | setParam m p =>
    exact exec_elim h rfl (command_keeps hs id (fun _ _ => id) fun a u hu => SamePlace.keeps (SamePlace.setParam m a u) hu)
  | rebase m p =>
    exact exec_elim h rfl (command_keeps hs id (fun _ _ => id) fun a u hu => rebase_agrees hu m a)
  | _ => exact SamePlace.keeps (SamePlace.of_odo (exec_same h .odo (by simp [touches]))) hs

/-- Settles O52: the commands that touch the odometry one by one, and an edge moves none of the four. -/
theorem coordinatesStayInRange : Obligations.CoordinatesStayInRange := by
  refine kept_of_exec_edge ?_ exec_agrees ?_
  · exact fun s t h hs => SamePlace.keeps (SamePlace.of_odo (changesOnly_same h .odo (by simp))) hs
  · intro s t h hs
    obtain ⟨-, -, hodo⟩ := h
    exact SamePlace.keeps ⟨congrArg (·.cp) hodo, congrArg (·.hw) hodo, congrArg (·.limit) hodo,
      congrArg (·.retrace) hodo⟩ hs

end Sys2Proof.Machine
end

section
/-! PROOFS. The firing records (R48): every outstanding record sits in the slot of its tag. -/
namespace Sys2Proof.Machine

/-- The records of a ring sit in the slots of their tags. -/
def slotted (ring : Vector FiringRecord 64) : Prop :=
  ∀ i : Fin 64, (ring[i]).outstanding = true → ringSlot (ring[i]).tag = i

theorem recordsInSlots_iff (s : State) : recordsInSlots s ↔ slotted s.seq.ring := Iff.rfl

/-- A slot takes a record of its own tag, or a FREE one. -/
theorem slotted_set {ring : Vector FiringRecord 64} (h : slotted ring) (i : Fin 64) {x : FiringRecord}
    (hx : x.outstanding = true → ringSlot x.tag = i) : slotted (ring.set i x) := by
  intro j hj
  by_cases hij : j = i
  · subst hij
    simp only [Fin.getElem_fin, Vector.getElem_set_self] at hj ⊢
    exact hx hj
  · have hne : i.val ≠ j.val := fun e => hij (Fin.ext e.symm)
    simp only [Fin.getElem_fin, Vector.getElem_set_ne _ _ hne] at hj ⊢
    exact h j hj

namespace InSlots

theorem of_changes {bs : List Block} {s t : State} (h : changesOnly bs s t) (hb : Block.seq ∉ bs)
    (hs : recordsInSlots s) : recordsInSlots t := by
  rw [recordsInSlots_iff, show t.seq = s.seq from changesOnly_same h .seq hb]
  exact hs

theorem of_ring {s t : State} (h : t.seq.ring = s.seq.ring) (hs : recordsInSlots s) : recordsInSlots t := by
  rw [recordsInSlots_iff, h]
  exact hs

theorem settleKeepAlive {s : State} (hs : recordsInSlots s) : recordsInSlots s.settleKeepAlive :=
  of_ring (congrArg (·.ring) (settleKeepAlive_seq s)) hs

theorem markStopping {s : State} (hs : recordsInSlots s) : recordsInSlots s.markStopping :=
  of_ring (congrArg (·.ring) (markStopping_seq s).1) hs

/-! ## Steps and cycles (R41, R42) -/

/-- A record is allocated in the slot of its tag (R48). -/
theorem lanePart {s : State} (hs : recordsInSlots s) (k : Fin 16) (r : Rail) : recordsInSlots (s.lanePart k r) := by
  unfold State.lanePart
  split
  · exact slotted_set hs _ fun _ => rfl
  · exact hs

theorem beginStep {s : State} (hs : recordsInSlots s) (k : Fin 16) : recordsInSlots (s.beginStep k) :=
  lanePart (lanePart hs k .a) k .b

theorem beginCycle {s : State} (hs : recordsInSlots s) (kind : CycleKind) : recordsInSlots (s.beginCycle kind) := by
  unfold State.beginCycle
  split
  · exact hs
  · exact beginStep (of_ring (by rfl) hs) 0

theorem testDistance {s : State} (hs : recordsInSlots s) : recordsInSlots s.testDistance := by
  unfold State.testDistance State.distanceTrigger
  split
  · dsimp only
    split
    · exact beginCycle (of_ring (by rfl) hs) .distance
    · split
      · exact of_changes (eventIf_changes _ _ _) (by simp) (of_ring (by rfl) hs)
      · exact of_ring (by rfl) hs
  · exact hs

theorem keepaliveTrigger {s : State} (hs : recordsInSlots s) : recordsInSlots (keepaliveTrigger s) := by
  unfold Machine.keepaliveTrigger
  split
  · dsimp only
    split
    · exact beginCycle (of_ring (by rfl) hs) .keepalive
    · exact of_ring (by rfl) hs
  · exact hs

theorem endCycle {s : State} (hs : recordsInSlots s) : recordsInSlots s.endCycle := by
  have hidle : recordsInSlots s.settleOverspeed.cycleIdle :=
    of_ring (congrArg (·.ring) (settleOverspeed_seq s)) hs
  unfold State.endCycle
  dsimp only
  split
  · exact beginCycle hidle .distance
  · exact hidle

theorem stepTimerExpiry {s : State} (hs : recordsInSlots s) : recordsInSlots (stepTimerExpiry s) := by
  unfold Machine.stepTimerExpiry
  split
  · exact hs
  · split
    · exact beginStep hs _
    · exact endCycle hs

/-! ## Releases and reports (R49, R50) -/

theorem freeSlot {s : State} (hs : recordsInSlots s) (i : Fin 64) : recordsInSlots (s.freeSlot i) :=
  slotted_set hs i fun h => absurd h Bool.false_ne_true

theorem judgeRelease {s : State} (hs : recordsInSlots s) (kind : CycleKind) : recordsInSlots (s.judgeRelease kind) :=
  of_changes (judgeRelease_changes s kind) (by simp) hs

theorem firingRecordTimeout {s : State} (hs : recordsInSlots s) (i : Fin 64) :
    recordsInSlots (firingRecordTimeout i s) := by
  unfold Machine.firingRecordTimeout
  split
  · exact judgeRelease (of_changes (orderTimedOut_changes _ _) (by simp) (freeSlot hs i)) _
  · exact hs

theorem takeReport {s : State} (hs : recordsInSlots s) (r : Rail) (tag : Byte) (p : Fin 16)
    (xs : Vector GateResult 4) : recordsInSlots (s.takeReport r tag p xs) := by
  have hreceived : recordsInSlots (s.receive (ringSlot tag) p) := slotted_set hs _ (hs (ringSlot tag))
  have hobserved := of_changes (observeCoupling_changes _ r p xs (s.seq.ring[ringSlot tag]).kind) (by simp) hreceived
  have hhanded : ∀ {u : State} (x : FiringRecord), recordsInSlots u → recordsInSlots (u.handIfAdmitted r p xs x) := by
    intro u x hu
    unfold State.handIfAdmitted
    split
    · exact of_changes (handAll_changes _ _ _ _ _) (by simp) hu
    · exact hu
  have hcompleted : ∀ (u : State) (i : Fin 64), recordsInSlots u → recordsInSlots (u.completeRecord i) := by
    intro u i hu
    unfold State.completeRecord
    split
    · exact judgeRelease (of_ring (by rfl) (freeSlot hu i)) _
    · exact hu
  exact hcompleted _ _ (hhanded _ hobserved)

theorem report {s : State} (hs : recordsInSlots s) (r : Rail) (tag probe : Byte) (xs : Vector GateResult 4) :
    recordsInSlots (report r tag probe xs s) := by
  unfold Machine.report
  dsimp only
  split
  case h_4 => exact takeReport hs r tag _ xs
  all_goals exact of_ring (by rfl) hs

/-! ## Other commands that write the sequencer -/

theorem encoderTick {s : State} (hs : recordsInSlots s) (e : Encoder) (d : Direction) :
    recordsInSlots (encoderTick e d s) := by
  have hjudged : ∀ {u : State}, recordsInSlots u → recordsInSlots u.judgeTick := fun {u} hu =>
    settleKeepAlive (of_changes (clearStandstill_changes _) (by simp) (of_changes (followRetrace_changes _) (by simp)
      (of_changes (followLimit_changes u) (by simp) hu)))
  have hchanged : ∀ {u : State}, recordsInSlots u → recordsInSlots u.cpChanged := fun {u} hu =>
    of_changes (dueTests_changes _) (by simp) (of_changes (followCloseLine_changes _ .b) (by simp)
      (of_changes (followCloseLine_changes _ .a) (by simp)
        (testDistance (of_changes (changesOnly_trans (countDistance_changes u .a) (countDistance_changes _ .b))
          (by simp) hu))))
  have hticked : ∀ {u : State} (v : State), v.seq = u.seq → recordsInSlots u → recordsInSlots (v.sourceTick d) := by
    intro u v hv hu
    have hmoved := hjudged (of_ring (t := v.setOdo (v.odo.sourceTick d)) (congrArg (·.ring) hv) hu)
    unfold State.sourceTick
    dsimp only
    split
    · exact hmoved
    · exact hchanged hmoved
  have hturned : ∀ (q : Quadrature) (x : Odometry), ((s.turn e q).setOdo x).seq = s.seq := by
    intro q x
    cases e <;> rfl
  unfold Machine.encoderTick
  dsimp only
  split
  · exact hticked _ (hturned _ _) hs
  · exact of_ring (congrArg (·.ring) (hturned _ _)) hs

theorem standstillSet {s : State} (hs : recordsInSlots s) : recordsInSlots (standstillSet s) := by
  unfold Machine.standstillSet
  split
  · exact hs
  · exact of_changes (dueTests_changes _) (by simp) (of_changes (updateLead_changes _) (by simp)
      (settleKeepAlive (of_ring (by rfl) hs)))

/-- Suspension judged again and the keep-alive timer settled leave the ring (R26, R40). -/
theorem judged {s : State} (hs : recordsInSlots s) (b : SuspendBeginCause) (e : SuspendEndCause) :
    recordsInSlots ((s.judgeSuspension b e).settleKeepAlive) :=
  settleKeepAlive (of_changes (judgeSuspension_changes s b e) (by simp) hs)

theorem liftSample {s : State} (hs : recordsInSlots s) (v : Bool) : recordsInSlots (liftSample v s) := by
  unfold Machine.liftSample State.acceptLift
  dsimp only
  split
  · refine judged ?_ _ _
    split
    · exact markStopping (of_ring (by rfl) hs)
    · exact of_ring (by rfl) hs
  · exact of_ring (by rfl) hs

theorem startRun {s : State} (hs : recordsInSlots s) (h : Sender) : recordsInSlots (s.startRun h) := by
  have hodometry : recordsInSlots s.startOdometry := of_changes (startOdometry_spec s).2 (by simp) hs
  have hvalues : recordsInSlots s.startValues := of_ring (by rfl) hodometry
  have hlane : ∀ {u : State} (r : Rail), recordsInSlots u → recordsInSlots (u.startLane r) := fun {u} r hu =>
    of_changes (startLane_lanes u r).2.2 (by simp) hu
  exact settleKeepAlive (hlane .b (hlane .a (of_changes (judgeSuspension_changes _ _ _) (by simp)
    (of_changes (event_changes s.startValues _) (by simp) hvalues))))

theorem warmReset (s : State) (c : ResetCause) : recordsInSlots (s.warmReset c) := by
  intro i hi
  simp [State.warmReset, State.warmValues, Sequencer.warm] at hi

end InSlots

/-! ## Every command, every step -/

theorem exec_slots (i : Instr) (s t : State) (hs : recordsInSlots s) (h : exec i s = .next t) : recordsInSlots t := by
  cases i with
  | resetRelease l =>
    refine exec_elim h rfl fun i hi => ?_
    simp [State.cold, Sequencer.cold, FiringRecord.free] at hi
  | encoderTick e d => exact exec_elim h rfl (unlessHeld_keeps hs (InSlots.encoderTick hs e d))
  | standstillSet => exact exec_elim h rfl (unlessHeld_keeps hs (InSlots.standstillSet hs))
  | liftSample v => exact exec_elim h rfl (unlessHeld_keeps hs (InSlots.liftSample hs v))
  | keepaliveTrigger => exact exec_elim h rfl (unlessHeld_keeps hs (InSlots.keepaliveTrigger hs))
  | stepTimerExpiry => exact exec_elim h rfl (unlessHeld_keeps hs (InSlots.stepTimerExpiry hs))
  | firingRecordTimeout j => exact exec_elim h rfl (unlessHeld_keeps hs (InSlots.firingRecordTimeout hs j))
  | report r tag probe xs => exact exec_elim h rfl (unlessHeld_keeps hs (InSlots.report hs r tag probe xs))
  | startRun m p =>
    refine exec_elim h rfl (command_keeps hs id (fun _ _ => id) fun _ u hu => ?_)
    unfold startRun
    split
    · exact InSlots.of_ring (by rfl) hu
    · split
      · exact InSlots.of_ring (by rfl) hu
      · exact InSlots.of_ring (by rfl) (InSlots.startRun hu m)
  | pauseRun m p =>
    refine exec_elim h rfl (command_keeps hs id (fun _ _ => id) fun _ u hu => ?_)
    unfold pauseRun
    split
    · exact InSlots.of_ring (by rfl) (InSlots.judged (InSlots.of_ring (by rfl) (InSlots.markStopping hu)) _ _)
    · exact InSlots.of_ring (by rfl) hu
  | resumeRun m p =>
    refine exec_elim h rfl (command_keeps hs id (fun _ _ => id) fun _ u hu => ?_)
    unfold resumeRun
    split
    · exact InSlots.of_ring (by rfl) (InSlots.judged (InSlots.of_ring (by rfl) hu) _ _)
    · exact InSlots.of_ring (by rfl) hu
  | endRun m p =>
    refine exec_elim h rfl (command_keeps hs id (fun _ _ => id) fun _ u hu => ?_)
    have htaken : recordsInSlots (u.endRunTaken m) :=
      InSlots.of_changes (judgeDrain_changes _) (by simp) (InSlots.of_ring (by rfl)
        (InSlots.judged (InSlots.of_ring (by rfl) (InSlots.markStopping (InSlots.of_ring (by rfl) hu))) _ _))
    unfold endRun
    split
    · exact htaken
    · exact htaken
    · exact InSlots.of_ring (by rfl) hu
  | writeStep m p =>
    refine exec_elim h rfl (command_keeps hs id (fun _ _ => id) fun _ u hu => ?_)
    unfold writeStep
    dsimp only
    split
    · split
      · exact InSlots.of_ring (by rfl) hu
      · exact InSlots.of_ring (by rfl) hu
    · exact InSlots.of_ring (by rfl) hu
  | warmReset m p =>
    exact exec_elim h rfl (command_keeps hs id (fun _ _ => id) fun _ u _ => InSlots.warmReset u _)
  | linkBreak =>
    refine exec_elim h rfl (unlessHeld_keeps hs ?_)
    unfold linkBreak
    split
    · exact hs
    · exact InSlots.warmReset s _
  | _ => exact InSlots.of_changes (exec_changes _ s t h) (by simp [touches]) hs

/-- Settles O56: a record is allocated only in the slot of its tag, and no other command moves one. -/
theorem recordsStayInTheirSlots : Obligations.RecordsStayInTheirSlots := by
  refine kept_of_exec_edge ?_ exec_slots ?_
  · exact fun s t h hs => InSlots.of_changes h (by simp) hs
  · intro s t h hs
    have hseq := h.seq
    exact InSlots.of_ring (congrArg (·.ring) hseq) hs

end Sys2Proof.Machine
end

section
/-! PROOFS. The cell windows (R89, R90, R93): canonical open records, their bounds, and an aligned tail. -/
namespace Sys2Proof.Machine

/-- What an encoder tick does beside its conditions, in the order of `State.cpChanged`. -/
theorem encoderTick_keeps {p : State → Prop} {s : State} (hs : p s) (e : Encoder) (d : Direction)
    (hother : ∀ u v : State, changesOnly [.odo, .seq, .link, .pins] u v → p u → p v)
    (hdistance : ∀ (u : State) (r : Rail), p u → p (u.countDistance r))
    (htest : ∀ u : State, p u → p u.testDistance)
    (hclose : ∀ (u : State) (r : Rail), p u → p (u.followCloseLine r))
    (hdue : ∀ (u : State) (r : Rail), p u → p (u.dueTest r)) : p (encoderTick e d s) := by
  have hmono : ∀ {u v : State} {bs : List Block}, changesOnly bs u v → bs ⊆ [.odo, .seq, .link, .pins] → p u → p v :=
    fun {u v bs} h hb hu => hother u v (changesOnly_mono h hb) hu
  have hticked : p ((s.turn e ((s.odo.quadrature e).ticked d)).setOdo
      ((s.turn e ((s.odo.quadrature e).ticked d)).odo.addDelta e d)) :=
    hmono (setOdo_changes _ _) (by simp) (hmono (turn_changes s e _) (by simp) hs)
  have hjudged : ∀ {u : State}, p u → p u.judgeTick := fun {u} hu => hmono (judgeTick_changes u) (by simp) hu
  have hmoved : ∀ {u : State}, p u → p u.cpChanged := fun {u} hu =>
    hdue _ .b (hdue _ .a (hclose _ .b (hclose _ .a (htest _ (hdistance _ .b (hdistance u .a hu))))))
  unfold encoderTick
  dsimp only
  split
  · have hsource : ∀ u : State, p u → p (u.setOdo (u.odo.sourceTick d)).judgeTick := fun u hu =>
      hjudged (hmono (setOdo_changes u _) (by simp) hu)
    unfold State.sourceTick
    dsimp only
    split
    · exact hsource _ hticked
    · exact hmoved (hsource _ hticked)
  · exact hticked

theorem receive_changes (s : State) (i : Fin 64) (p : Fin 16) : changesOnly [.seq] s (s.receive i p) :=
  setSeq_changes _ _

theorem completeRecord_changes (s : State) (i : Fin 64) :
    changesOnly [.seq, .lanes, .pending] s (s.completeRecord i) := by
  unfold State.completeRecord
  split
  · exact changesOnly_trans (changesOnly_trans (changesOnly_mono (freeSlot_changes s i) (by simp))
      (changesOnly_mono (setLane_changes _ _ _) (by simp))) (changesOnly_mono (judgeRelease_changes _ _) (by simp))
  · exact changesOnly_refl _ s

theorem drainEnd_changes (s : State) : changesOnly [.run, .lanes, .link] s s.drainEnd :=
  changesOnly_trans (changesOnly_trans (changesOnly_trans
    (changesOnly_mono (laneDown_changes s .a) (by simp)) (changesOnly_mono (laneDown_changes _ .b) (by simp)))
    (changesOnly_mono (setRun_changes _ _) (by simp))) (changesOnly_mono (event_changes _ _) (by simp))

/-- START_RUN answers on the state it found, or on the state of the new run. -/
theorem startRun_keeps {p : State → Prop} {u : State} {m : Sender}
    (hreply : ∀ (t : State) (x : Result) (bs : List Byte), p t → p (t.reply m 0x01 x bs)) (hu : p u)
    (hrun : p (u.startRun m)) : p (startRun m () u) := by
  unfold startRun
  split
  · exact hreply u .busy _ hu
  · split
    · exact hreply u .config _ hu
    · exact hreply (u.startRun m) .ok _ hrun

theorem linkBreak_keeps {p : State → Prop} {s : State} (hs : p s) (hreset : p (s.warmReset .linkBreak)) :
    p (linkBreak s) := by
  unfold linkBreak
  split
  · exact hs
  · exact hreset

/-! ## One window -/

/-- What O54 says of one window. -/
def Window.sound (w : Window) : Prop := w.wf = true ∧ w.bounded ∧ w.tailAligned

theorem windowsSound_and_tailsAligned_iff (s : State) :
    (windowsSound s ∧ tailsAligned s) ↔ ∀ r : Rail, (s.windows.get r).sound := by
  constructor
  · rintro ⟨⟨hwa, hwb, hba, hbb⟩, hta, htb⟩ r
    cases r
    · exact ⟨hwa, hba, hta⟩
    · exact ⟨hwb, hbb, htb⟩
  · intro h
    obtain ⟨hwa, hba, hta⟩ := h .a
    obtain ⟨hwb, hbb, htb⟩ := h .b
    exact ⟨⟨hwa, hwb, hba, hbb⟩, hta, htb⟩

/-- A window without records is sound. -/
theorem Window.sound_of_empty {w : Window} (hcells : w.cells = []) (htail : w.tail = []) : w.sound := by
  refine ⟨?_, ?_, ?_⟩
  · simp [Window.wf, hcells]
  · simp [Window.bounded, hcells]
  · simp [Window.tailAligned, htail]

theorem appendTail_aligned {w : Window} (h : w.tailAligned) {x : ClosedCell} (hx : x.index = w.k) {v : Window}
    (hk : v.k = w.k + 1) (htail : v.tail = appendTail w.tail x) : v.tailAligned := by
  obtain ⟨hlen, hmap⟩ := h
  have hall : (w.tail ++ [x]).map ClosedCell.index =
      (List.range (w.tail.length + 1)).map fun i : Nat => w.k - (w.tail.length : Int) + (i : Int) := by
    rw [List.map_append, hmap, List.range_succ, List.map_append]
    simp [hx]
  unfold Window.tailAligned
  rw [htail, hk]
  unfold appendTail
  dsimp only
  split
  case isTrue hfull =>
    have hseven : w.tail.length = 7 := by simp at hfull; omega
    refine ⟨by simp [hseven], ?_⟩
    rw [List.map_drop, hall, List.length_drop, List.length_append, hseven]
    simp only [List.range_succ, List.range_zero, List.nil_append, List.cons_append, List.map_cons, List.map_nil,
      List.drop_succ_cons, List.drop_zero, List.length_cons, List.length_nil]
    norm_num
    omega
  case isFalse hroom =>
    refine ⟨by simp at hroom ⊢; omega, ?_⟩
    rw [hall, List.length_append, List.length_singleton]
    refine List.map_congr_left fun i _ => ?_
    push_cast
    omega

theorem closedWindow_sound {s : State} {r : Rail} (h : (s.windows.get r).sound) (d : Bool) :
    (s.closedWindow r d).sound := by
  obtain ⟨hwf, hbounded, haligned⟩ := h
  exact ⟨closedWindow_wf hwf d, closedWindow_bounded hbounded d,
    appendTail_aligned haligned (x := s.closedRecord r d) rfl rfl rfl⟩

/-- Counters of a window are read by none of the three. -/
theorem Window.sound_congr {w v : Window} (hk : v.k = w.k) (hcells : v.cells = w.cells) (htail : v.tail = w.tail)
    (h : w.sound) : v.sound := by
  obtain ⟨hwf, hbounded, haligned⟩ := h
  refine ⟨?_, ?_, ?_⟩
  · unfold Window.wf Window.isOpen at *
    rw [hk, hcells]
    exact hwf
  · unfold Window.bounded at *
    rw [hcells]
    exact hbounded
  · unfold Window.tailAligned at *
    rw [hk, htail]
    exact haligned

/-! ## The operations on both windows -/

/-- Both windows are sound. -/
def windowsFine (s : State) : Prop := ∀ r : Rail, (s.windows.get r).sound

namespace Windows

theorem of_changes {bs : List Block} {s t : State} (h : changesOnly bs s t) (hb : Block.windows ∉ bs)
    (hs : windowsFine s) : windowsFine t := by
  unfold windowsFine
  rw [show t.windows = s.windows from changesOnly_same h .windows hb]
  exact hs

theorem set {s t : State} {r : Rail} {w : Window} (hs : windowsFine s) (ht : t.windows = s.windows.set r w)
    (hw : w.sound) : windowsFine t := by
  intro q
  rw [ht]
  by_cases hq : q = r
  · subst hq
    rw [PerRail.get_set_same]
    exact hw
  · rw [PerRail.get_set_ne _ hq]
    exact hs q

theorem closeCells (r : Rail) (d : Bool) (n : Nat) : ∀ s : State, windowsFine s → windowsFine (closeCells r d n s) := by
  induction n with
  | zero => exact fun s hs => hs
  | succ n ih =>
    intro s hs
    exact ih _ (set hs (closeCell_windows s r d) (closedWindow_sound (hs r) d))

theorem followCloseLine (s : State) (r : Rail) (hs : windowsFine s) : windowsFine (s.followCloseLine r) := by
  unfold State.followCloseLine
  split
  · exact hs
  · exact closeCells r false _ s hs

theorem drainRail {s : State} (hs : windowsFine s) (r : Rail) : windowsFine (s.drainRail r) :=
  of_changes (flush_changes _ r) (by simp) (closeCells r false 3 _ (closeCells r true _ s hs))

theorem drain {s : State} (hs : windowsFine s) : windowsFine (drain s) := by
  unfold Machine.drain
  split
  · exact of_changes (drainEnd_changes _) (by simp) (drainRail (drainRail hs .a) .b)
  · exact hs

/-! ## Entering -/

theorem isOpen_of_entered {s : State} {h : PlacedHit} (hcase : s.hitCase h.rail h.group h.cell h.x = .entered) :
    (s.windows.get h.rail).isOpen h.cell = true := by
  unfold State.hitCase at hcase
  dsimp only at hcase
  simp only [Window.isOpen, Bool.and_eq_true, decide_eq_true_eq]
  split at hcase
  · split at hcase <;> cases hcase
  · split at hcase
    · cases hcase
    · exact ⟨by omega, by omega⟩

theorem enterHit {s : State} (hs : windowsFine s) (h : PlacedHit) : windowsFine (s.enterHit h) := by
  obtain ⟨hwf, hbounded, haligned⟩ := hs h.rail
  unfold State.enterHit
  dsimp only
  split
  case h_1 | h_2 => exact hs
  case h_3 | h_4 => exact set hs rfl (Window.sound_congr rfl rfl rfl (hs h.rail))
  case h_5 hcase =>
    exact set hs rfl ⟨Window.enter_wf hwf h (isOpen_of_entered hcase), Window.enter_bounded hbounded h, haligned⟩

theorem handOn {s : State} (hs : windowsFine s) (h : PlacedHit) : windowsFine (s.handOn h) := by
  unfold State.handOn
  split
  · exact enterHit hs h
  · exact set hs rfl (Window.sound_congr rfl rfl rfl (hs h.rail))

theorem handCoverage {s : State} (hs : windowsFine s) (r : Rail) (p : Fin 16) (fp : Int) :
    windowsFine (s.handCoverage r p fp) := by
  unfold State.handCoverage State.enterCoverage
  dsimp only
  split
  · split
    case isTrue hopen =>
      obtain ⟨hwf, hbounded, haligned⟩ := hs r
      exact set hs rfl ⟨Window.cover_wf hwf hopen _, Window.cover_bounded hbounded _ _, haligned⟩
    case isFalse => exact hs
  · exact hs

theorem handGate {s : State} (hs : windowsFine s) (t : State) (r : Rail) (p : Fin 16) (xs : Vector GateResult 4)
    (fp : Int) (g : Fin 4) : windowsFine (s.handGate t r p xs fp g) := by
  unfold State.handGate
  split
  · exact hs
  · exact handOn hs _
  · exact handOn hs _

theorem handAll {s : State} (hs : windowsFine s) (r : Rail) (p : Fin 16) (xs : Vector GateResult 4) (fp : Int) :
    windowsFine (s.handAll r p xs fp) := by
  have hgates : ∀ (gs : List (Fin 4)) (u : State), windowsFine u →
      windowsFine (gs.foldl (fun u g => u.handGate s r p xs fp g) u) := by
    intro gs
    induction gs with
    | nil => exact fun u hu => hu
    | cons g gs ih => exact fun u hu => ih _ (handGate hu s r p xs fp g)
  exact hgates fourGates _ (handCoverage hs r p fp)

theorem takeReport {s : State} (hs : windowsFine s) (r : Rail) (tag : Byte) (p : Fin 16) (xs : Vector GateResult 4) :
    windowsFine (s.takeReport r tag p xs) := by
  have hobserved := of_changes (observeCoupling_changes (s.receive (ringSlot tag) p) r p xs
    (s.seq.ring[ringSlot tag]).kind) (by simp) (of_changes (receive_changes s (ringSlot tag) p) (by simp) hs)
  refine of_changes (completeRecord_changes _ _) (by simp) ?_
  unfold State.handIfAdmitted
  split
  · exact handAll hobserved r p xs _
  · exact hobserved

theorem report {s : State} (hs : windowsFine s) (r : Rail) (tag probe : Byte) (xs : Vector GateResult 4) :
    windowsFine (report r tag probe xs s) := by
  unfold Machine.report
  dsimp only
  split
  case h_4 => exact takeReport hs r tag _ xs
  all_goals exact of_changes (setLane_changes _ _ _) (by simp) hs

/-! ## Run start and resets -/

theorem startRun (s : State) (h : Sender) : windowsFine (s.startRun h) := by
  have hvalues : windowsFine s.startValues := by
    intro r
    cases r
    · exact Window.sound_of_empty rfl rfl
    · exact Window.sound_of_empty rfl rfl
  have hlane : ∀ {u : State} (r : Rail), windowsFine u → windowsFine (u.startLane r) := fun {u} r hu =>
    of_changes (startLane_lanes u r).2.2 (by simp) hu
  exact of_changes (settleKeepAlive_changes _) (by simp) (hlane .b (hlane .a
    (of_changes (judgeSuspension_changes _ _ _) (by simp) (of_changes (event_changes s.startValues _) (by simp) hvalues))))

theorem warmReset (s : State) (c : ResetCause) : windowsFine (s.warmReset c) := by
  intro r
  cases r
  · exact Window.sound_of_empty rfl rfl
  · exact Window.sound_of_empty rfl rfl

theorem exec (i : Instr) (s t : State) (hs : windowsFine s) (h : exec i s = .next t) : windowsFine t := by
  cases i with
  | resetRelease l =>
    refine exec_elim h rfl fun r => ?_
    cases r
    · exact Window.sound_of_empty rfl rfl
    · exact Window.sound_of_empty rfl rfl
  | encoderTick e d =>
    refine exec_elim h rfl (unlessHeld_keeps hs (encoderTick_keeps hs e d ?_ ?_ ?_ followCloseLine ?_))
    · exact fun u v hc hu => of_changes hc (by simp) hu
    · exact fun u r hu => of_changes (countDistance_changes u r) (by simp) hu
    · exact fun u hu => of_changes (testDistance_changes u) (by simp) hu
    · exact fun u r hu => of_changes (dueTest_changes u r) (by simp) hu
  | report r tag probe xs => exact exec_elim h rfl (unlessHeld_keeps hs (report hs r tag probe xs))
  | drain => exact exec_elim h rfl (unlessHeld_keeps hs (drain hs))
  | startRun m p =>
    exact exec_elim h rfl (command_keeps hs id (fun _ _ => id) fun _ u hu =>
      startRun_keeps (fun t x bs ht => of_changes (reply_changes t m 0x01 x bs) (by simp) ht) hu (startRun u m))
  | warmReset m p => exact exec_elim h rfl (command_keeps hs id (fun _ _ => id) fun _ u _ => warmReset u _)
  | linkBreak => exact exec_elim h rfl (unlessHeld_keeps hs (linkBreak_keeps hs (warmReset s _)))
  | _ => exact of_changes (exec_changes _ s t h) (by simp [touches]) hs

end Windows

/-- Settles O54: a closing cell moves K with the tail's end, and a hit or a coverage reference enters an open cell. -/
theorem windowsStaySound : Obligations.WindowsStaySound := by
  unfold Obligations.WindowsStaySound
  simp only [windowsSound_and_tailsAligned_iff]
  exact kept_of_exec_edge (fun s t h hs => Windows.of_changes h (by simp) hs) Windows.exec
    fun s t h hs => Windows.of_changes h.changes (by simp) hs

end Sys2Proof.Machine
end

section
/-! PROOFS. The engines: what every command keeps of an engine, once for the valves (R157) and the queues (R146). -/
namespace Sys2Proof.Machine

/-! ## A property of each engine -/

/-- Valves a phase allows (R157). -/
def EngineState.allows (x : EngineState) (v : Valves) : Prop :=
  ({ queue := [], state := x, valves := v } : Engine).valvesAgree

/-- A property that a phase with its valves, a sound queue, a counted distance and an edge keep of an engine. -/
structure EngineRule (Q : Engine → Prop) : Prop where
  cold : Q .cold
  phase : ∀ (e : Engine) (x : EngineState) (v : Valves), x.allows v → Q e → Q { e with state := x, valves := v }
  queue : ∀ (e : Engine) (q : List MarkerEntry), (queueSound e.queue → queueSound q) → Q e → Q { e with queue := q }
  counted : ∀ e : Engine, Q e → Q { e with state := e.state.countDistance }
  aged : ∀ e : Engine, Q e → Q e.aged
  valvesOff : ∀ e : Engine, Q e → Q { e with valves := .off }

/-- Both engines have a property. -/
def enginesAll (Q : Engine → Prop) (s : State) : Prop := ∀ r : Rail, Q (s.marker.engines.get r)

namespace EngineRule

variable {Q : Engine → Prop}

theorem of_engines {s t : State} (h : t.marker.engines = s.marker.engines) (hs : enginesAll Q s) : enginesAll Q t := by
  unfold enginesAll
  rw [h]
  exact hs

theorem of_changes {bs : List Block} {s t : State} (h : changesOnly bs s t) (hb : Block.marker ∉ bs)
    (hs : enginesAll Q s) : enginesAll Q t :=
  of_engines (congrArg (·.engines) (changesOnly_same h .marker hb)) hs

theorem set {s : State} (hs : enginesAll Q s) (r : Rail) {e : Engine} (he : Q e) : enginesAll Q (s.setEngine r e) := by
  intro q
  by_cases hq : q = r
  · subst hq
    rw [State.setEngine_marker]
    exact (PerRail.get_set_same _ _ _).symm ▸ he
  · rw [State.setEngine_marker]
    exact (PerRail.get_set_ne _ hq e).symm ▸ hs q

end EngineRule

/-! ## Queues (R146) -/

theorem queueSound_nil : queueSound [] := ⟨Nat.zero_le _, List.Pairwise.nil⟩

theorem queueSound_tail {e : MarkerEntry} {q : List MarkerEntry} (h : queueSound (e :: q)) : queueSound q := by
  obtain ⟨hlen, hpair⟩ := h
  exact ⟨Nat.le_of_succ_le hlen, (List.pairwise_cons.1 hpair).2⟩

/-- An entry replaced by one of its target, as a latch and a re-arming do. -/
theorem queueSound_head {e x : MarkerEntry} {q : List MarkerEntry} (hx : x.target = e.target)
    (h : queueSound (e :: q)) : queueSound (x :: q) := by
  obtain ⟨hlen, hpair⟩ := h
  obtain ⟨hhead, htail⟩ := List.pairwise_cons.1 hpair
  exact ⟨hlen, List.pairwise_cons.2 ⟨fun y hy => hx ▸ hhead y hy, htail⟩⟩

theorem queueSound_insert (e : MarkerEntry) {q : List MarkerEntry} (hroom : q.length < 16) (h : queueSound q) :
    queueSound (insertEntry e q) := by
  obtain ⟨-, hpair⟩ := h
  obtain ⟨u, v, hq, hins, -⟩ := insertEntry_split e q
  refine ⟨?_, insertEntry_ordered e hpair⟩
  rw [hins]
  rw [hq] at hroom
  simp only [List.length_append, List.length_cons] at hroom ⊢
  omega

theorem queueSound_rebased (delta : Int) {q : List MarkerEntry} (h : queueSound q) :
    queueSound (q.map fun e => e.rebased delta) := by
  obtain ⟨hlen, hpair⟩ := h
  refine ⟨by rwa [List.length_map], List.pairwise_map.2 (hpair.imp fun {x y} hxy => ?_)⟩
  exact Int.sub_le_sub_right hxy delta

theorem latch_target (s : State) (r : Rail) (e : MarkerEntry) : (s.latch r e).target = e.target := by
  unfold State.latch
  split <;> rfl

/-! ## Valves (R157) -/

theorem off_allowed (x : EngineState) : x.allows .off := by
  refine ⟨fun h => absurd h Bool.false_ne_true, ?_⟩
  cases x with
  | idle => rfl
  | halted => rfl
  | painting p m =>
    cases p
    case pullin | hold => exact ⟨rfl, fun h => absurd h Bool.false_ne_true, fun h => absurd h Bool.false_ne_true⟩
    case gap | recover => rfl
    case purge => exact ⟨rfl, rfl⟩

/-- The colour valve of a mark while it is pulled in or held. -/
theorem colourValve_allowed {p : PaintPhase} (hp : p = .pullin ∨ p = .hold) (m n : Mark) (hn : n.shape = m.shape) :
    (EngineState.painting p n).allows (colourValve m) := by
  unfold EngineState.allows Engine.valvesAgree colourValve
  rcases hp with rfl | rfl
  · cases hc : m.shape.colour <;> simp [hn, hc]
  · cases hc : m.shape.colour <;> simp [hn, hc]

/-! ## Due tests, offers and evaluations (R136, R147, R149) -/

/-- A fold keeps what its step keeps. -/
theorem foldl_keeps {α : Type} {p : State → Prop} {f : State → α → State} (hf : ∀ u a, p u → p (f u a)) (xs : List α) :
    ∀ s : State, p s → p (xs.foldl f s) := by
  induction xs with
  | nil => exact fun s hs => hs
  | cons x xs ih => exact fun s hs => ih _ (hf s x hs)

namespace EngineRule

variable {Q : Engine → Prop}

theorem updateAlert {s : State} (hs : enginesAll Q s) (urgent : Bool) (r : Rail) (cls : Fin 16) (tick : Int) :
    enginesAll Q (s.updateAlert urgent r cls tick) := by
  unfold State.updateAlert
  split
  · exact of_changes (setEval_changes _ _) (by simp) hs
  · exact hs

theorem endGap {s : State} (hs : enginesAll Q s) (r : Rail) : enginesAll Q (s.endGap r) := by
  have hrun : ∀ x : GapRun, enginesAll Q (s.setGapRun r x) := fun x => of_changes (setEval_changes _ _) (by simp) hs
  unfold State.endGap
  dsimp only
  split
  · exact of_changes (emit_changes _ _) (by simp) (hrun _)
  · exact hrun _

theorem evalGap {s : State} (hs : enginesAll Q s) (r : Rail) (c : Int) : enginesAll Q (s.evalGap r c) := by
  have hrun : ∀ x : GapRun, enginesAll Q (s.setGapRun r x) := fun x => of_changes (setEval_changes _ _) (by simp) hs
  unfold State.evalGap
  dsimp only
  split
  · exact endGap hs r
  · split
    · exact of_changes (emit_changes _ _) (by simp) (hrun _)
    · exact hrun _

theorem writeSpray {s : State} (hs : enginesAll Q s) (h : Sender) (a : WriteSprayArgs) :
    enginesAll Q (writeSpray h a s) := by
  unfold Machine.writeSpray
  split
  · exact of_engines rfl hs
  · exact of_changes (reply_changes _ _ _ _ _) (by simp) hs

variable (rule : EngineRule Q)
include rule

theorem enter {s : State} (hs : enginesAll Q s) (r : Rail) {x : EngineState} {v : Valves} (hv : x.allows v) :
    enginesAll Q (s.enter r x v) := set hs r (rule.phase _ x v hv (hs r))

theorem setQueue {s : State} (hs : enginesAll Q s) (r : Rail) {q : List MarkerEntry}
    (hq : queueSound (s.marker.engines.get r).queue → queueSound q) : enginesAll Q (s.setQueue r q) :=
  set hs r (rule.queue _ q hq (hs r))

theorem dueTestLoop (r : Rail) (n : Nat) : ∀ s : State, enginesAll Q s → enginesAll Q (dueTestLoop r n s) := by
  induction n with
  | zero => exact fun s hs => hs
  | succ n ih =>
    intro s hs
    unfold Machine.dueTestLoop
    split
    · exact hs
    case h_2 e rest hqueue =>
      split
      · exact ih _ (of_changes (emit_changes _ _) (by simp) (rule.setQueue hs r fun h => queueSound_tail (hqueue ▸ h)))
      · exact rule.setQueue hs r fun h => queueSound_head (latch_target s r e) (hqueue ▸ h)

theorem dueTest (s : State) (r : Rail) (hs : enginesAll Q s) : enginesAll Q (s.dueTest r) := rule.dueTestLoop r _ s hs

theorem dueTests {s : State} (hs : enginesAll Q s) : enginesAll Q s.dueTests :=
  rule.dueTest _ .b (rule.dueTest s .a hs)

theorem takeOffer {s : State} (hs : enginesAll Q s) (r : Rail) (target : Int) (spray : Fin 7) (cls : Fin 16) :
    enginesAll Q (s.takeOffer r target spray cls) := by
  unfold State.takeOffer
  split
  case h_1 hverdict =>
    refine rule.setQueue hs r (queueSound_insert _ ?_)
    unfold State.offerVerdict at hverdict
    dsimp only at hverdict
    split at hverdict
    · cases hverdict
    · split at hverdict
      · cases hverdict
      · omega
  case h_2 => exact hs

theorem markerOffer {s : State} (hs : enginesAll Q s) (r : Rail) (spray : Option (Fin 7)) (cls : Fin 16) (tick : Int) :
    enginesAll Q (s.markerOffer r spray cls tick) := by
  cases spray with
  | none => exact hs
  | some n => exact rule.takeOffer hs r tick n cls

theorem issueFinding {s : State} (hs : enginesAll Q s) (r : Rail) (p : Fin 32) (run : PatternRun) (capped : Bool) :
    enginesAll Q (s.issueFinding r p run capped) :=
  rule.dueTest _ r (of_changes (emit_changes _ _) (by simp) (updateAlert (rule.markerOffer hs r _ _ _) _ r _ _))

theorem endRunOf {s : State} (hs : enginesAll Q s) (r : Rail) (p : Fin 32) : enginesAll Q (s.endRunOf r p) := by
  have hrun : enginesAll Q (s.setPatternRun r p .closed) := of_changes (setEval_changes _ _) (by simp) hs
  unfold State.endRunOf
  dsimp only
  split
  · exact rule.issueFinding hrun r p _ _
  · exact hrun

theorem evalPattern {s : State} (hs : enginesAll Q s) (r : Rail) (c : Int) (p : Fin 32) :
    enginesAll Q (s.evalPattern r c p) := by
  have hrun : ∀ x : PatternRun, enginesAll Q (s.setPatternRun r p x) := fun x =>
    of_changes (setEval_changes _ _) (by simp) hs
  unfold State.evalPattern
  dsimp only
  split
  · split
    · split
      · exact rule.issueFinding (hrun _) r p _ _
      · exact hrun _
    · exact rule.endRunOf hs r p
  · exact hs

theorem evaluate {s : State} (hs : enginesAll Q s) (r : Rail) (c : Int) : enginesAll Q (s.evaluate r c) :=
  evalGap (foldl_keeps (p := enginesAll Q) (f := fun u p => u.evalPattern r c p) (fun _ p hu => rule.evalPattern hu r c p)
    patternNumbers s hs) r c

/-! ## Cells, the close line and the drain -/

theorem closeCell {s : State} (hs : enginesAll Q s) (r : Rail) (d : Bool) : enginesAll Q (s.closeCell r d) := by
  have hclosed : ∀ w : Window, enginesAll Q ((s.setWindow r w).expireZones) := fun w =>
    of_changes (setZones_changes _ _) (by simp) (of_changes (setWindow_changes s r w) (by simp) hs)
  unfold State.closeCell
  dsimp only
  split
  · exact rule.evaluate (hclosed _) r _
  · exact hclosed _

theorem closeCells (r : Rail) (d : Bool) (n : Nat) : ∀ s : State, enginesAll Q s → enginesAll Q (closeCells r d n s) := by
  induction n with
  | zero => exact fun s hs => hs
  | succ n ih => exact fun s hs => ih _ (rule.closeCell hs r d)

theorem followCloseLine (s : State) (r : Rail) (hs : enginesAll Q s) : enginesAll Q (s.followCloseLine r) := by
  unfold State.followCloseLine
  split
  · exact hs
  · exact rule.closeCells r false _ s hs

theorem flush {s : State} (hs : enginesAll Q s) (r : Rail) : enginesAll Q (s.flush r) :=
  endGap (foldl_keeps (p := enginesAll Q) (f := fun u p => u.endRunOf r p) (fun _ p hu => rule.endRunOf hu r p) patternNumbers s hs) r

theorem drainRail {s : State} (hs : enginesAll Q s) (r : Rail) : enginesAll Q (s.drainRail r) := by
  unfold State.drainRail
  exact rule.flush (rule.closeCells r false 3 _ (rule.closeCells r true _ s hs)) r

theorem drain {s : State} (hs : enginesAll Q s) : enginesAll Q (drain s) := by
  unfold Machine.drain
  split
  · exact of_changes (drainEnd_changes _) (by simp) (rule.drainRail (rule.drainRail hs .a) .b)
  · exact hs

/-! ## Phases (R150–R160) -/

theorem beginPullin {s : State} (hs : enginesAll Q s) (r : Rail) (m : Mark) (dash : Nat) :
    enginesAll Q (s.beginPullin r m dash) := rule.enter hs r (colourValve_allowed (.inl rfl) m _ rfl)

theorem beginHold {s : State} (hs : enginesAll Q s) (r : Rail) (m : Mark) : enginesAll Q (s.beginHold r m) :=
  rule.enter hs r (colourValve_allowed (.inr rfl) m _ rfl)

theorem enterIdle {s : State} (hs : enginesAll Q s) (r : Rail) : enginesAll Q (s.enterIdle r) :=
  rule.dueTest _ r (rule.enter hs r (off_allowed _))

theorem beginRecover {s : State} (hs : enginesAll Q s) (r : Rail) (m : Mark) : enginesAll Q (s.beginRecover r m) := by
  unfold State.beginRecover
  split
  · exact rule.enterIdle hs r
  · exact rule.enter hs r (off_allowed _)

theorem afterDashes {s : State} (hs : enginesAll Q s) (r : Rail) (m : Mark) : enginesAll Q (s.afterDashes r m) := by
  unfold State.afterDashes
  split
  · exact rule.enter hs r ⟨fun h => absurd h Bool.false_ne_true, rfl, rfl⟩
  · exact rule.beginRecover hs r m

theorem headTaken {s : State} (hs : enginesAll Q s) (r : Rail) : enginesAll Q (headTaken r s) := by
  unfold Machine.headTaken
  split
  case h_1 e rest _ hqueue =>
    have hrest : enginesAll Q (s.setQueue r rest) := rule.setQueue hs r fun h => queueSound_tail (hqueue ▸ h)
    split
    · split
      · exact rule.dueTest _ r (of_changes (emit_changes _ _) (by simp) (rule.beginPullin hrest r _ _))
      · split
        · exact of_changes (emit_changes _ _) (by simp) (rule.enter hs r (off_allowed _))
        · exact rule.dueTest _ r (of_changes (emit_changes _ _) (by simp) hrest)
    · exact hs
  case h_2 => exact hs

theorem pullinEnd {s : State} (hs : enginesAll Q s) (r : Rail) : enginesAll Q (pullinEnd r s) := by
  unfold Machine.pullinEnd
  split
  · exact rule.beginHold hs r _
  · exact hs

theorem holdPulsePeriod {s : State} (hs : enginesAll Q s) (r : Rail) : enginesAll Q (holdPulsePeriod r s) := by
  unfold Machine.holdPulsePeriod
  split
  · split
    · exact rule.enter hs r (off_allowed _)
    · exact rule.enter hs r (colourValve_allowed (.inr rfl) _ _ rfl)
  · exact hs

theorem holdEnd {s : State} (hs : enginesAll Q s) (r : Rail) : enginesAll Q (holdEnd r s) := by
  unfold Machine.holdEnd
  split
  · split
    · exact rule.enter hs r (off_allowed _)
    · exact rule.afterDashes hs r _
  · exact hs

theorem gapEnd {s : State} (hs : enginesAll Q s) (r : Rail) : enginesAll Q (gapEnd r s) := by
  unfold Machine.gapEnd
  split
  · exact rule.beginPullin hs r _ _
  · exact hs

theorem purgeEnd {s : State} (hs : enginesAll Q s) (r : Rail) : enginesAll Q (purgeEnd r s) := by
  unfold Machine.purgeEnd
  split
  · exact rule.beginRecover hs r _
  · exact hs

theorem recoverEnd {s : State} (hs : enginesAll Q s) (r : Rail) : enginesAll Q (recoverEnd r s) := by
  unfold Machine.recoverEnd
  split
  · exact rule.enterIdle hs r
  · exact hs

/-! ## Commands -/

theorem standstillSet {s : State} (hs : enginesAll Q s) : enginesAll Q (standstillSet s) := by
  unfold Machine.standstillSet
  split
  · exact hs
  · refine rule.dueTests (of_engines (s := State.settleKeepAlive _) (by rfl)
      (of_changes (settleKeepAlive_changes _) (by simp) (of_engines (by rfl) hs)))

theorem resumeRetry {s : State} (hs : enginesAll Q s) (r : Rail) : enginesAll Q (s.resumeRetry r) := by
  unfold State.resumeRetry
  split
  case h_1 => exact rule.enterIdle hs r
  case h_2 e rest hqueue =>
    refine rule.enterIdle (rule.setQueue hs r fun h => ?_) r
    rw [hqueue] at h
    exact queueSound_head (e := e) rfl h

theorem resumeSkip {s : State} (hs : enginesAll Q s) (r : Rail) : enginesAll Q (s.resumeSkip r) := by
  unfold State.resumeSkip
  split
  case h_1 => exact rule.enterIdle hs r
  case h_2 e rest hqueue =>
    exact rule.enterIdle (of_changes (emit_changes _ _) (by simp)
      (rule.setQueue hs r fun h => queueSound_tail (hqueue ▸ h))) r

theorem markerResume {s : State} (hs : enginesAll Q s) (h : Sender) (a : MarkerResumeArgs) :
    enginesAll Q (markerResume h a s) := by
  have hreply : ∀ (u : State) (x : Result) (bs : List Byte), enginesAll Q u → enginesAll Q (u.reply h 0x28 x bs) :=
    fun u x bs hu => of_changes (reply_changes u h 0x28 x bs) (by simp) hu
  unfold Machine.markerResume
  split
  · exact hreply s _ _ hs
  · split
    · exact hreply s _ _ hs
    · split
      · dsimp only
        split
        · exact hreply _ _ _ (rule.resumeRetry hs _)
        · exact hreply _ _ _ (rule.resumeSkip hs _)
      · exact hreply s _ _ hs

theorem markerTest {s : State} (hs : enginesAll Q s) (h : Sender) (a : MarkerTestArgs) :
    enginesAll Q (markerTest h a s) := by
  have hreply : ∀ (u : State) (x : Result) (bs : List Byte), enginesAll Q u → enginesAll Q (u.reply h 0x29 x bs) :=
    fun u x bs hu => of_changes (reply_changes u h 0x29 x bs) (by simp) hu
  unfold Machine.markerTest
  split
  · split
    · exact hreply _ _ _ (of_engines (by rfl) (rule.beginPullin hs _ _ _))
    · exact hreply s _ _ hs
  · exact hreply s _ _ hs

theorem cancelEngine {s : State} (hs : enginesAll Q s) (r : Rail) : enginesAll Q (s.cancelEngine r) := by
  unfold State.cancelEngine
  split
  case h_4 => exact rule.enterIdle hs r
  case h_5 => exact hs
  all_goals exact rule.afterDashes hs r _

theorem markerCancel {s : State} (hs : enginesAll Q s) (h : Sender) (b : Byte) : enginesAll Q (markerCancel h b s) := by
  unfold Machine.markerCancel
  split
  · exact of_changes (reply_changes _ _ _ _ _) (by simp) hs
  · exact of_changes (reply_changes _ _ _ _ _) (by simp) (rule.cancelEngine (of_changes (cancelAll_marker _ _ _).2
      (by simp) (rule.setQueue hs _ fun _ => queueSound_nil)) _)

theorem rebase {s : State} (hs : enginesAll Q s) (h : Sender) (delta : Word32) : enginesAll Q (rebase h delta s) := by
  have hmoved : ∀ x : Int, enginesAll Q (s.moveBy x) := by
    intro x r
    cases r
    · exact rule.queue _ _ (queueSound_rebased x) (hs .a)
    · exact rule.queue _ _ (queueSound_rebased x) (hs .b)
  unfold Machine.rebase
  split
  · exact of_changes (reply_changes _ _ _ _ _) (by simp) hs
  · split
    · exact of_changes (reply_changes _ _ _ _ _) (by simp) (of_changes (followLimit_changes _) (by simp) (hmoved _))
    · exact of_changes (reply_changes _ _ _ _ _) (by simp) hs

theorem setParam {s : State} (hs : enginesAll Q s) (h : Sender) (a : SetParamArgs) : enginesAll Q (setParam h a s) := by
  have hmode : ∀ u : State, changesOnly [.odo, .link] u u.modeWritten := by
    intro u
    unfold State.modeWritten
    split
    · exact changesOnly_trans (clearSlip_changes u) (returnSource_changes _ _)
    · exact clearSlip_changes u
  have hwritten : ∀ (u : State) (n : Nat), enginesAll Q u → enginesAll Q (u.paramWritten n) := by
    intro u n hu
    unfold State.paramWritten
    split
    · exact of_changes (hmode u) (by simp) hu
    · exact rule.dueTest u .a hu
    · exact rule.dueTest u .b hu
    · exact hu
  unfold Machine.setParam
  split
  · exact of_changes (reply_changes _ _ _ _ _) (by simp) hs
  · exact of_changes (reply_changes _ _ _ _ _) (by simp) (hwritten _ _ (of_engines (by rfl) hs))

theorem warmReset (s : State) (c : ResetCause) : enginesAll Q (s.warmReset c) := by
  intro r
  cases r
  · exact rule.cold
  · exact rule.cold

/-! ## Every command, every step -/

theorem exec (i : Instr) (s t : State) (hs : enginesAll Q s) (h : exec i s = .next t) : enginesAll Q t := by
  cases i with
  | resetNAsserted =>
    refine exec_elim h rfl fun r => ?_
    cases r
    · exact rule.valvesOff _ (hs .a)
    · exact rule.valvesOff _ (hs .b)
  | resetRelease l =>
    refine exec_elim h rfl fun r => ?_
    cases r
    · exact rule.cold
    · exact rule.cold
  | encoderTick e d =>
    refine exec_elim h rfl (unlessHeld_keeps hs (encoderTick_keeps hs e d ?_ ?_ ?_ rule.followCloseLine rule.dueTest))
    · exact fun u v hc hu => of_changes hc (by simp) hu
    · exact fun u r hu => set hu r (rule.counted _ (hu r))
    · exact fun u hu => of_changes (testDistance_changes u) (by simp) hu
  | standstillSet => exact exec_elim h rfl (unlessHeld_keeps hs (rule.standstillSet hs))
  | speedIntervalEnd => exact exec_elim h rfl (unlessHeld_keeps hs (rule.dueTests (of_engines (by rfl) hs)))
  | drain => exact exec_elim h rfl (unlessHeld_keeps hs (rule.drain hs))
  | headTaken r => exact exec_elim h rfl (unlessHeld_keeps hs (rule.headTaken hs r))
  | pullinEnd r => exact exec_elim h rfl (unlessHeld_keeps hs (rule.pullinEnd hs r))
  | holdPulsePeriod r => exact exec_elim h rfl (unlessHeld_keeps hs (rule.holdPulsePeriod hs r))
  | holdEnd r => exact exec_elim h rfl (unlessHeld_keeps hs (rule.holdEnd hs r))
  | gapEnd r => exact exec_elim h rfl (unlessHeld_keeps hs (rule.gapEnd hs r))
  | purgeEnd r => exact exec_elim h rfl (unlessHeld_keeps hs (rule.purgeEnd hs r))
  | recoverEnd r => exact exec_elim h rfl (unlessHeld_keeps hs (rule.recoverEnd hs r))
  | linkBreak => exact exec_elim h rfl (unlessHeld_keeps hs (linkBreak_keeps hs (rule.warmReset s _)))
  | warmReset m p => exact exec_elim h rfl (command_keeps hs id (fun _ _ => id) fun _ u _ => rule.warmReset u _)
  | setParam m p => exact exec_elim h rfl (command_keeps hs id (fun _ _ => id) fun a u hu => rule.setParam hu m a)
  | writeSpray m p => exact exec_elim h rfl (command_keeps hs id (fun _ _ => id) fun a u hu => writeSpray hu m a)
  | markerResumeRetry m p | markerResumeSkip m p =>
    exact exec_elim h rfl (command_keeps hs id (fun _ _ => id) fun a u hu => rule.markerResume hu m a)
  | markerTest m p => exact exec_elim h rfl (command_keeps hs id (fun _ _ => id) fun a u hu => rule.markerTest hu m a)
  | markerCancel m p => exact exec_elim h rfl (command_keeps hs id (fun _ _ => id) fun b u hu => rule.markerCancel hu m b)
  | rebase m p => exact exec_elim h rfl (command_keeps hs id (fun _ _ => id) fun x u hu => rule.rebase hu m x)
  | _ => exact of_changes (exec_changes _ s t h) (by simp [touches]) hs

theorem edge {s t : State} (h : EdgeAges s t) (hs : enginesAll Q s) : enginesAll Q t := by
  intro r
  rcases h.engines r with hsame | haged
  · rw [hsame]
    exact hs r
  · rw [haged]
    exact rule.aged _ (hs r)

end EngineRule

/-! ## The valves -/

theorem valvesAgree_iff (s : State) : valvesAgree s ↔ enginesAll Engine.valvesAgree s := by
  constructor
  · rintro ⟨ha, hb⟩ r
    cases r
    · exact ha
    · exact hb
  · exact fun h => ⟨h .a, h .b⟩

theorem valvesAgree_counted {e : Engine} (h : e.valvesAgree) :
    ({ e with state := e.state.countDistance } : Engine).valvesAgree := by
  obtain ⟨q, x, v⟩ := e
  cases x with
  | idle => exact h
  | halted => exact h
  | painting p m => cases p <;> exact h

theorem valvesAgree_aged {e : Engine} (h : e.valvesAgree) : e.aged.valvesAgree := by
  obtain ⟨q, x, v⟩ := e
  cases x with
  | idle => exact h
  | halted => exact h
  | painting p m => cases p <;> exact h

theorem valvesRule : EngineRule Engine.valvesAgree where
  cold := off_allowed .idle
  phase := fun _ _ _ hv _ => hv
  queue := fun _ _ _ h => h
  counted := fun _ => valvesAgree_counted
  aged := fun _ => valvesAgree_aged
  valvesOff := fun e _ => off_allowed e.state

/-- Settles O53: each phase is entered with the valves its row of the table allows. -/
theorem valvesStayWithPhase : Obligations.ValvesStayWithPhase := by
  unfold Obligations.ValvesStayWithPhase
  rw [show valvesAgree = enginesAll Engine.valvesAgree from funext fun s => propext (valvesAgree_iff s)]
  exact kept_of_exec_edge (fun s t h hs => EngineRule.of_changes h (by simp) hs) valvesRule.exec
    fun s t h hs => valvesRule.edge h hs

end Sys2Proof.Machine
end

section
/-! PROOFS. The Zone List (R112) and the marker queues (R146) stay ordered and bounded. -/
namespace Sys2Proof.Machine

/-! ## A sound list of zones -/

/-- What R112 asks of the zones listed. -/
def zoneListSound (zs : List Zone) : Prop :=
  (zs.filter Zone.isMute).length ≤ 16 ∧ (zs.filter fun z => !z.isMute).length ≤ 1 ∧ zs.Pairwise Zone.ordered
    ∧ ∀ z ∈ zs, z.sound

theorem zonesSound_iff (s : State) : zonesSound s ↔ zoneListSound s.zones.zones := Iff.rfl

namespace ZoneListSound

theorem nil : zoneListSound [] := ⟨Nat.zero_le _, Nat.zero_le _, List.Pairwise.nil, by simp⟩

theorem filter {zs : List Zone} (h : zoneListSound zs) (f : Zone → Bool) : zoneListSound (zs.filter f) := by
  obtain ⟨hmute, hsuspend, hordered, hsound⟩ := h
  have hsub : (zs.filter f).Sublist zs := List.filter_sublist
  exact ⟨(hsub.filter _).length_le.trans hmute, (hsub.filter _).length_le.trans hsuspend, hordered.sublist hsub,
    fun z hz => hsound z (hsub.subset hz)⟩

/-- The zones of a kind after an insertion: one more of the kind of the zone inserted. -/
theorem filter_insert_length (f : Zone → Bool) (z : Zone) (zs : List Zone) :
    ((insertZone z zs).filter f).length = (zs.filter f).length + if f z then 1 else 0 := by
  obtain ⟨u, v, hzs, hins⟩ := insertZone_split z zs
  rw [hins, hzs, List.filter_append, List.filter_append, List.filter_cons]
  split <;> simp [Nat.add_assoc]

theorem insert {zs : List Zone} (h : zoneListSound zs) {z : Zone} (hz : z.sound)
    (hmute : z.isMute = true → (zs.filter Zone.isMute).length < 16)
    (hsuspend : z.isMute = false → zs.filter (fun y => !y.isMute) = []) : zoneListSound (insertZone z zs) := by
  obtain ⟨hm, hs, hordered, hsound⟩ := h
  refine ⟨?_, ?_, insertZone_ordered z hordered, fun y hy => ?_⟩
  · rw [filter_insert_length]
    split
    case isTrue hkind => exact hmute hkind
    case isFalse => exact hm
  · rw [filter_insert_length]
    split
    case isTrue hkind =>
      rw [hsuspend (by simpa using hkind)]
      exact le_refl 1
    case isFalse => exact hs
  · rcases insertZone_mem.1 hy with rfl | hy
    · exact hz
    · exact hsound y hy

/-- Zones changed one by one, each keeping its kind and the order of all. -/
theorem map {zs : List Zone} (h : zoneListSound zs) {f : Zone → Zone} (hkind : ∀ z, (f z).isMute = z.isMute)
    (horder : ∀ x y : Zone, x.ordered y → (f x).ordered (f y)) (hsound : ∀ z ∈ zs, (f z).sound) :
    zoneListSound (zs.map f) := by
  obtain ⟨hm, hs, hordered, -⟩ := h
  refine ⟨?_, ?_, List.pairwise_map.2 (hordered.imp fun {x y} => horder x y), ?_⟩
  · rw [List.filter_map, List.length_map]
    simpa only [Function.comp_def, hkind] using hm
  · rw [List.filter_map, List.length_map]
    simpa only [Function.comp_def, hkind] using hs
  · intro y hy
    obtain ⟨z, hz, rfl⟩ := List.mem_map.1 hy
    exact hsound z hz

end ZoneListSound

/-! ## The commands that change the list -/

/-- The SUSPEND zone finished at a tick, a MUTE zone as it is (R119). -/
def Zone.finished (stop : Int) (y : Zone) : Zone := if y.isMute then y else { y with stop := some stop }

/-- Finishing moves no zone in the order and changes no kind. -/
theorem Zone.finished_place (stop : Int) (y : Zone) :
    (y.finished stop).isMute = y.isMute ∧ (y.finished stop).start = y.start ∧ (y.finished stop).id = y.id := by
  unfold Zone.finished
  split
  · exact ⟨rfl, rfl, rfl⟩
  · exact ⟨rfl, rfl, rfl⟩

theorem Zone.finished_ordered (stop : Int) {x y : Zone} (h : x.ordered y) :
    (x.finished stop).ordered (y.finished stop) := by
  obtain ⟨-, hxstart, hxid⟩ := x.finished_place stop
  obtain ⟨-, hystart, hyid⟩ := y.finished_place stop
  unfold Zone.ordered
  rw [hxstart, hxid, hystart, hyid]
  exact h

namespace ZonesSound

theorem of_zones {s t : State} (h : t.zones.zones = s.zones.zones) (hs : zonesSound s) : zonesSound t := by
  rw [zonesSound_iff, h]
  exact hs

theorem of_changes {bs : List Block} {s t : State} (h : changesOnly bs s t) (hb : Block.zones ∉ bs)
    (hs : zonesSound s) : zonesSound t :=
  of_zones (congrArg (·.zones) (changesOnly_same h .zones hb)) hs

theorem expireZones {s : State} (hs : zonesSound s) : zonesSound s.expireZones := ZoneListSound.filter hs _

theorem suspendZone_mem {l : ZoneList} {z : Zone} (h : l.suspendZone = some z) : z ∈ l.zones ∧ z.isMute = false := by
  refine ⟨List.mem_of_find?_eq_some h, ?_⟩
  simpa using List.find?_some h

/-- A SUSPEND zone is open or finished within the range at any start that lies in it. -/
theorem suspend_sound {z : Zone} (hkind : z.isMute = false) (hlow : tickMin ≤ z.start) (hhigh : z.start ≤ tickMax)
    (hstop : ∀ e, z.stop = some e → z.start ≤ e ∧ e ≤ tickMax) : z.sound := by
  refine ⟨hlow, hhigh, ?_⟩
  split
  case h_1 e he => exact hstop e he
  case h_2 =>
    unfold Zone.isMute at hkind
    split at hkind
    · cases hkind
    · assumption

theorem suspendStart_range (s : State) : tickMin ≤ s.suspendStart ∧ s.suspendStart ≤ tickMax := by
  unfold State.suspendStart clampInt tickMin tickMax
  omega

theorem beginSuspension {s : State} (hs : zonesSound s) (cause : SuspendBeginCause) :
    zonesSound (s.beginSuspension cause) := by
  obtain ⟨hlow, hhigh⟩ := suspendStart_range (s.setRun { s.run with suspension := true })
  unfold State.beginSuspension
  dsimp only
  split
  case h_1 hnone =>
    refine ZoneListSound.insert hs (suspend_sound rfl hlow hhigh (by simp [newSuspend])) (fun h => by cases h) fun _ => ?_
    exact List.filter_eq_nil_iff.2 fun y hy => by simpa using List.find?_eq_none.1 hnone y hy
  case h_2 z hz =>
    obtain ⟨hmem, hkind⟩ := suspendZone_mem hz
    obtain ⟨hzlow, hzhigh, -⟩ := hs.2.2.2 z hmem
    refine ZoneListSound.insert (ZoneListSound.filter hs _) (suspend_sound hkind ?_ ?_ (by simp)) (fun h => ?_) fun _ => ?_
    · exact le_min hzlow hlow
    · exact (min_le_left _ _).trans hzhigh
    · exact absurd (hkind.symm.trans h) Bool.false_ne_true
    · simp

/-- One SUSPEND zone stands in the list at most (R112). -/
theorem suspend_unique {s : State} (hs : zonesSound s) {y z : Zone} (hy : y ∈ s.zones.zones) (hz : z ∈ s.zones.zones)
    (hykind : y.isMute = false) (hzkind : z.isMute = false) : y = z := by
  obtain ⟨-, hone, -⟩ := hs
  have hmem : ∀ {x : Zone}, x ∈ s.zones.zones → x.isMute = false → x ∈ s.zones.zones.filter fun z => !z.isMute :=
    fun hx hkind => List.mem_filter.2 ⟨hx, by simpa using hkind⟩
  have h1 := hmem hy hykind
  have h2 := hmem hz hzkind
  match hfilter : s.zones.zones.filter fun z => !z.isMute with
  | [] => rw [hfilter] at h1; cases h1
  | [x] =>
    rw [hfilter, List.mem_singleton] at h1 h2
    exact h1.trans h2.symm
  | x :: x' :: rest =>
    rw [hfilter] at hone
    simp at hone

theorem endSuspension {s : State} (hs : zonesSound s) (cause : SuspendEndCause) : zonesSound (s.endSuspension cause) := by
  unfold State.endSuspension
  dsimp only
  split
  case h_1 => exact hs
  case h_2 z hz =>
    obtain ⟨hmem, hkind⟩ := suspendZone_mem hz
    refine ZoneListSound.map (f := Zone.finished _) hs (fun y => (y.finished_place _).1)
      (fun _ _ hxy => Zone.finished_ordered _ hxy) fun y hy => ?_
    · obtain ⟨hlow, hhigh, hstop⟩ := hs.2.2.2 y hy
      unfold Zone.finished
      split
      case isTrue => exact ⟨hlow, hhigh, hstop⟩
      case isFalse hmute =>
        have hsame : y = z := suspend_unique hs hy hmem (by simpa using hmute) hkind
        subst hsame
        refine ⟨hlow, hhigh, ?_⟩
        show y.start ≤ max y.start (min tickMax _) ∧ max y.start (min tickMax _) ≤ tickMax
        exact ⟨le_max_left _ _, max_le hhigh (min_le_left _ _)⟩

theorem judgeSuspension {s : State} (hs : zonesSound s) (b : SuspendBeginCause) (e : SuspendEndCause) :
    zonesSound (s.judgeSuspension b e) := by
  unfold State.judgeSuspension
  split
  · exact beginSuspension hs b
  · split
    · exact endSuspension hs e
    · exact hs

theorem judged {s : State} (hs : zonesSound s) (b : SuspendBeginCause) (e : SuspendEndCause) :
    zonesSound ((s.judgeSuspension b e).settleKeepAlive) :=
  of_changes (settleKeepAlive_changes _) (by simp) (judgeSuspension hs b e)

/-! ## Cells close -/

theorem closeCell {s : State} (hs : zonesSound s) (r : Rail) (d : Bool) : zonesSound (s.closeCell r d) := by
  have hexpired : ∀ w : Window, zonesSound ((s.setWindow r w).expireZones) := fun w =>
    expireZones (of_changes (setWindow_changes s r w) (by simp) hs)
  unfold State.closeCell
  dsimp only
  split
  · exact of_changes (evaluate_changes _ r _) (by simp) (hexpired _)
  · exact hexpired _

theorem closeCells (r : Rail) (d : Bool) (n : Nat) : ∀ s : State, zonesSound s → zonesSound (closeCells r d n s) := by
  induction n with
  | zero => exact fun s hs => hs
  | succ n ih => exact fun s hs => ih _ (closeCell hs r d)

theorem followCloseLine (s : State) (r : Rail) (hs : zonesSound s) : zonesSound (s.followCloseLine r) := by
  unfold State.followCloseLine
  split
  · exact hs
  · exact closeCells r false _ s hs

theorem drainRail {s : State} (hs : zonesSound s) (r : Rail) : zonesSound (s.drainRail r) := by
  unfold State.drainRail
  exact of_changes (flush_changes _ r) (by simp) (closeCells r false 3 _ (closeCells r true _ s hs))

theorem drain {s : State} (hs : zonesSound s) : zonesSound (drain s) := by
  unfold Machine.drain
  split
  · exact of_changes (drainEnd_changes _) (by simp) (drainRail (drainRail hs .a) .b)
  · exact hs

/-! ## Commands -/

theorem liftSample {s : State} (hs : zonesSound s) (v : Bool) : zonesSound (liftSample v s) := by
  unfold Machine.liftSample State.acceptLift
  dsimp only
  split
  · refine judged ?_ _ _
    split
    · exact of_changes (markStopping_changes _) (by simp) (of_zones (by rfl) hs)
    · exact of_zones (by rfl) hs
  · exact of_zones (by rfl) hs

theorem startRun {s : State} (hs : zonesSound s) (h : Sender) : zonesSound (s.startRun h) := by
  have hodometry : zonesSound s.startOdometry := of_changes (startOdometry_spec s).2 (by simp) hs
  have hkept : zonesSound ((((s.startOdometry).startController).startWindows).startZones) :=
    expireZones (ZoneListSound.filter hodometry _)
  have hvalues : zonesSound s.startValues := of_zones (by rfl) hkept
  have hlane : ∀ {u : State} (r : Rail), zonesSound u → zonesSound (u.startLane r) := fun {u} r hu =>
    of_changes (startLane_lanes u r).2.2 (by simp) hu
  exact of_changes (settleKeepAlive_changes _) (by simp) (hlane .b (hlane .a
    (judgeSuspension (of_changes (event_changes s.startValues _) (by simp) hvalues) _ _)))

theorem pauseRun {s : State} (hs : zonesSound s) (h : Sender) : zonesSound (pauseRun h () s) := by
  unfold Machine.pauseRun
  split
  · exact of_changes (reply_changes _ _ _ _ _) (by simp)
      (judged (of_zones (by rfl) (of_changes (markStopping_changes s) (by simp) hs)) _ _)
  · exact of_changes (reply_changes _ _ _ _ _) (by simp) hs

theorem resumeRun {s : State} (hs : zonesSound s) (h : Sender) : zonesSound (resumeRun h () s) := by
  unfold Machine.resumeRun
  split
  · exact of_changes (reply_changes _ _ _ _ _) (by simp) (judged (of_zones (by rfl) hs) _ _)
  · exact of_changes (reply_changes _ _ _ _ _) (by simp) hs

theorem endRun {s : State} (hs : zonesSound s) (h : Sender) : zonesSound (endRun h () s) := by
  have hdraining : zonesSound (s.enterDraining h) := of_changes (reply_changes _ _ _ _ _) (by simp)
    (judged (of_zones (by rfl) (of_changes (markStopping_changes _) (by simp) (of_zones (by rfl) hs))) _ _)
  have htaken : zonesSound (s.endRunTaken h) := of_changes (judgeDrain_changes _) (by simp) hdraining
  unfold Machine.endRun
  split
  · exact htaken
  · exact htaken
  · exact of_changes (reply_changes _ _ _ _ _) (by simp) hs

theorem addZone {s : State} (hs : zonesSound s) (h : Sender) (a : AddZoneArgs) : zonesSound (addZone h a s) := by
  have hrefused : ∀ x : Result, zonesSound (s.refuse h 0x20 x) := fun x => of_zones (by rfl) hs
  unfold Machine.addZone
  dsimp only
  split
  · exact hrefused _
  · split
    · exact hrefused _
    case isFalse horder =>
      split
      · exact hrefused _
      · split
        · exact hrefused _
        case isFalse hroom =>
          refine of_changes (reply_changes _ _ _ _ _) (by simp) (ZoneListSound.insert hs ?_ (fun _ => ?_) fun hkind => ?_)
          · have hstart := BitVec.le_toInt a.start
            have hstop := BitVec.toInt_lt (x := a.stop)
            refine ⟨hstart, ?_, ?_, ?_⟩
            · simp only [muteZone, tickMax]; omega
            · simp only [muteZone]; omega
            · simp only [tickMax]; omega
          · exact Nat.not_le.1 hroom
          · cases hkind

theorem cancelZone {s : State} (hs : zonesSound s) (h : Sender) (id : Byte) : zonesSound (cancelZone h id s) := by
  unfold Machine.cancelZone
  split
  · exact of_changes (reply_changes _ _ _ _ _) (by simp) hs
  · split
    · exact of_changes (reply_changes _ _ _ _ _) (by simp) (ZoneListSound.filter hs _)
    · exact of_changes (reply_changes _ _ _ _ _) (by simp) hs

/-- Zones move together where every coordinate stays in the range (R15). -/
theorem moveBy {s : State} (hs : zonesSound s) {delta : Int} (hcan : s.canRebase delta = true) :
    zonesSound (s.moveBy delta) := by
  have hrange : ∀ z ∈ s.zones.zones, ∀ x ∈ z.start :: z.stop.toList, inTickRange (x - delta) = true := by
    intro z hz x hx
    refine List.all_eq_true.1 hcan x (List.mem_cons_of_mem _ (List.mem_cons_of_mem _ (List.mem_append_left _ ?_)))
    exact List.mem_flatMap.2 ⟨z, hz, hx⟩
  simp only [inTickRange, Bool.and_eq_true, decide_eq_true_eq] at hrange
  refine ZoneListSound.map hs (fun _ => rfl) (fun x y hxy => ?_) fun z hz => ?_
  · unfold Zone.ordered Zone.rebased at *
    dsimp only
    omega
  · obtain ⟨-, -, hstop⟩ := hs.2.2.2 z hz
    obtain ⟨hlow, hhigh⟩ := hrange z hz z.start List.mem_cons_self
    refine ⟨hlow, hhigh, ?_⟩
    unfold Zone.rebased
    cases hend : z.stop with
    | none =>
      rw [hend] at hstop
      exact hstop
    | some e =>
      rw [hend] at hstop
      exact ⟨Int.sub_le_sub_right hstop.1 delta, (hrange z hz e (by simp [hend])).2⟩

theorem rebase {s : State} (hs : zonesSound s) (h : Sender) (delta : Word32) : zonesSound (rebase h delta s) := by
  unfold Machine.rebase
  split
  · exact of_changes (reply_changes _ _ _ _ _) (by simp) hs
  · split
    case isTrue hcan =>
      exact of_changes (reply_changes _ _ _ _ _) (by simp) (of_changes (followLimit_changes _) (by simp) (moveBy hs hcan))
    case isFalse => exact of_changes (reply_changes _ _ _ _ _) (by simp) hs

theorem exec (i : Instr) (s t : State) (hs : zonesSound s) (h : exec i s = .next t) : zonesSound t := by
  cases i with
  | resetRelease l => exact exec_elim h rfl ZoneListSound.nil
  | encoderTick e d =>
    refine exec_elim h rfl (unlessHeld_keeps hs (encoderTick_keeps hs e d ?_ ?_ ?_ followCloseLine ?_))
    · exact fun u v hc hu => of_changes hc (by simp) hu
    · exact fun u r hu => of_changes (countDistance_changes u r) (by simp) hu
    · exact fun u hu => of_changes (testDistance_changes u) (by simp) hu
    · exact fun u r hu => of_changes (dueTest_changes u r) (by simp) hu
  | liftSample v => exact exec_elim h rfl (unlessHeld_keeps hs (liftSample hs v))
  | drain => exact exec_elim h rfl (unlessHeld_keeps hs (drain hs))
  | linkBreak => exact exec_elim h rfl (unlessHeld_keeps hs (linkBreak_keeps hs ZoneListSound.nil))
  | warmReset m p => exact exec_elim h rfl (command_keeps hs id (fun _ _ => id) fun _ _ _ => ZoneListSound.nil)
  | startRun m p =>
    exact exec_elim h rfl (command_keeps hs id (fun _ _ => id) fun _ u hu =>
      startRun_keeps (fun t x bs ht => of_changes (reply_changes t m 0x01 x bs) (by simp) ht) hu (startRun hu m))
  | pauseRun m p => exact exec_elim h rfl (command_keeps hs id (fun _ _ => id) fun _ u hu => pauseRun hu m)
  | resumeRun m p => exact exec_elim h rfl (command_keeps hs id (fun _ _ => id) fun _ u hu => resumeRun hu m)
  | endRun m p => exact exec_elim h rfl (command_keeps hs id (fun _ _ => id) fun _ u hu => endRun hu m)
  | addZone m p => exact exec_elim h rfl (command_keeps hs id (fun _ _ => id) fun a u hu => addZone hu m a)
  | cancelZone m p => exact exec_elim h rfl (command_keeps hs id (fun _ _ => id) fun b u hu => cancelZone hu m b)
  | rebase m p => exact exec_elim h rfl (command_keeps hs id (fun _ _ => id) fun x u hu => rebase hu m x)
  | _ => exact of_changes (exec_changes _ s t h) (by simp [touches]) hs

end ZonesSound

/-! ## The marker queues -/

theorem queuesSound_iff (s : State) : queuesSound s ↔ enginesAll (fun e => queueSound e.queue) s := by
  constructor
  · rintro ⟨ha, hb⟩ r
    cases r
    · exact ha
    · exact hb
  · exact fun h => ⟨h .a, h .b⟩

theorem aged_queue (e : Engine) : e.aged.queue = e.queue := by
  unfold Engine.aged
  split <;> rfl

theorem queuesRule : EngineRule fun e => queueSound e.queue where
  cold := queueSound_nil
  phase := fun _ _ _ _ h => h
  queue := fun _ _ hq h => hq h
  counted := fun _ h => h
  aged := fun e h => by rwa [aged_queue]
  valvesOff := fun _ h => h

/-- Settles O55: zones and entries are inserted in order where there is room, and nothing else adds one. -/
theorem zonesAndQueuesStayOrdered : Obligations.ZonesAndQueuesStayOrdered := by
  have hzones : keptByEveryStep zonesSound := kept_of_exec_edge
    (fun s t h hs => ZonesSound.of_changes h (by simp) hs) ZonesSound.exec
    fun s t h hs => ZonesSound.of_changes h.changes (by simp) hs
  have hqueues : keptByEveryStep (enginesAll fun e => queueSound e.queue) := kept_of_exec_edge
    (fun s t h hs => EngineRule.of_changes h (by simp) hs) queuesRule.exec fun s t h hs => queuesRule.edge h hs
  intro s t hs h
  obtain ⟨hz, hq⟩ := hs
  exact ⟨hzones s t hz h, (queuesSound_iff t).2 (hqueues s t ((queuesSound_iff s).1 hq) h)⟩

end Sys2Proof.Machine
end

section
/-! PROOFS. The Queue Memory (R176): records reach the lanes one by one, and a record never takes a lane beyond its
size. -/
namespace Sys2Proof.Machine

/-! ## Records given to the lanes -/

/-- A Link Controller with records given to its lanes: intake and pages stand, and no lane outgrows them. -/
def LinkState.filledTo (l m : LinkState) : Prop :=
  m.intakePages = l.intakePages ∧ m.intake = l.intake ∧
  ∀ n : Node, (m.lanes.get n).pages = (l.lanes.get n).pages ∧
    ((l.lanes.get n).fill ≤ (l.lanes.get n).size → (m.lanes.get n).fill ≤ (m.lanes.get n).size)

namespace FilledTo

theorem refl (l : LinkState) : l.filledTo l := ⟨rfl, rfl, fun _ => ⟨rfl, id⟩⟩

theorem trans {l m k : LinkState} (h : l.filledTo m) (h' : m.filledTo k) : l.filledTo k := by
  obtain ⟨hpages, hintake, hlanes⟩ := h
  obtain ⟨kpages, kintake, klanes⟩ := h'
  exact ⟨kpages.trans hpages, kintake.trans hintake, fun n =>
    ⟨(klanes n).1.trans (hlanes n).1, fun hfit => (klanes n).2 ((hlanes n).2 hfit)⟩⟩

theorem offered (l : ReportLane) (cp : Int) (r : Record) : (l.offered cp r).pages = l.pages ∧
    (l.fill ≤ l.size → (l.offered cp r).fill ≤ (l.offered cp r).size) := by
  unfold ReportLane.offered
  split
  · exact ⟨(accept_kept l cp r).1, fun h => accept_fits h cp r⟩
  · exact ⟨rfl, id⟩

theorem offer (l : LinkState) (cp : Int) (r : Record) : l.filledTo (l.offer cp r) := by
  refine ⟨rfl, rfl, fun n => ?_⟩
  cases n
  · exact offered l.lanes.n1 cp r
  · exact offered l.lanes.n2 cp r
  · exact offered l.lanes.n3 cp r

theorem sendTo (l : LinkState) (n : Node) (cp : Int) (r : Record) : l.filledTo (l.sendTo n cp r) := by
  refine ⟨rfl, rfl, fun m => ⟨(sendTo_kept l n cp r m).1, fun hfit => ?_⟩⟩
  unfold LinkState.sendTo
  by_cases hm : m = n
  · subst hm
    rw [PerNode.get_set_same]
    exact accept_fits hfit cp r
  · rw [PerNode.get_set_ne _ hm]
    exact hfit

theorem told (cp : Int) (es : List Event) : ∀ l : LinkState, l.filledTo (l.told cp es) := by
  induction es with
  | nil => exact refl
  | cons e es ih => exact fun l => trans (offer l cp _) (ih _)

end FilledTo

/-- Between two states records were given to the lanes, and the link is otherwise untouched. -/
def recorded (s t : State) : Prop := s.link.filledTo t.link

/-- What O57 says of a Link Controller. -/
def LinkState.divided (l : LinkState) : Prop :=
  (1 ≤ l.intakePages ∧ ∀ n : Node, 1 ≤ (l.lanes.get n).pages)
    ∧ l.intakePages + (l.lanes.get .n1).pages + (l.lanes.get .n2).pages + (l.lanes.get .n3).pages = 64
    ∧ l.intakeFill ≤ l.intakePages * 512 ∧ ∀ n : Node, (l.lanes.get n).fill ≤ (l.lanes.get n).size

theorem queueMemorySound_iff (s : State) : queueMemorySound s ↔ s.link.divided := by
  constructor
  · rintro ⟨hi, h1, h2, h3, hsum, hintake, f1, f2, f3⟩
    refine ⟨⟨hi, fun n => ?_⟩, hsum, hintake, fun n => ?_⟩
    · cases n
      · exact h1
      · exact h2
      · exact h3
    · cases n
      · exact f1
      · exact f2
      · exact f3
  · rintro ⟨⟨hi, hpages⟩, hsum, hintake, hfill⟩
    exact ⟨hi, hpages .n1, hpages .n2, hpages .n3, hsum, hintake, hfill .n1, hfill .n2, hfill .n3⟩

namespace Recorded

theorem of_link {s t : State} (h : t.link = s.link) : recorded s t := by
  unfold recorded
  rw [h]
  exact FilledTo.refl _

theorem refl (s : State) : recorded s s := FilledTo.refl _

theorem trans {s t u : State} (h : recorded s t) (k : recorded t u) : recorded s u := FilledTo.trans h k

theorem of {bs : List Block} {s t : State} (h : changesOnly bs s t) (hb : Block.link ∉ bs) : recorded s t :=
  of_link (changesOnly_same h .link hb)

theorem keeps {s t : State} (h : recorded s t) (hs : s.link.divided) : t.link.divided := by
  obtain ⟨hpages, hintake, hlanes⟩ := h
  obtain ⟨⟨hi, hone⟩, hsum, hroom, hfill⟩ := hs
  unfold LinkState.divided LinkState.intakeFill at *
  rw [hpages, hintake]
  simp only [(hlanes _).1]
  exact ⟨⟨hi, hone⟩, hsum, hroom, fun n => (hlanes n).2 (hfill n)⟩

theorem emit (s : State) (x : Record) : recorded s (s.emit x) := FilledTo.offer _ _ _

theorem event (s : State) (x : Event) : recorded s (s.event x) := emit s _

theorem eventIf (s : State) (c : Bool) (x : Event) : recorded s (s.eventIf c x) := by
  cases c
  · exact refl s
  · exact event s x

theorem reply (s : State) (h : Sender) (code : Byte) (x : Result) (bs : List Byte) :
    recorded s (s.reply h code x bs) := FilledTo.sendTo _ _ _ _

theorem of_told {s t : State} {cp : Int} {es : List Event} (h : t.link = s.link.told cp es) : recorded s t := by
  unfold recorded
  rw [h]
  exact FilledTo.told cp es _

/-! ## Conditions, suspension and lanes -/

theorem settleKeepAlive (s : State) : recorded s s.settleKeepAlive := of (settleKeepAlive_changes s) (by simp)

theorem markStopping (s : State) : recorded s s.markStopping := of (markStopping_changes s) (by simp)

theorem followLimit (s : State) : recorded s s.followLimit := of_told (followLimit_link s)

theorem judgeTick (s : State) : recorded s s.judgeTick :=
  trans (trans (trans (followLimit s) (of_told (followRetrace_link _))) (of_told (clearStandstill_link _)))
    (settleKeepAlive _)

theorem judgeSuspension (s : State) (b : SuspendBeginCause) (e : SuspendEndCause) :
    recorded s (s.judgeSuspension b e) := by
  unfold State.judgeSuspension State.beginSuspension State.endSuspension
  dsimp only
  split
  · split
    · exact trans (of_link (by rfl)) (event _ _)
    · exact trans (of_link (by rfl)) (event _ _)
  · split
    · split
      · exact of_link rfl
      · exact trans (of_link (by rfl)) (event _ _)
    · exact refl s

theorem judged (s : State) (b : SuspendBeginCause) (e : SuspendEndCause) :
    recorded s ((s.judgeSuspension b e).settleKeepAlive) := trans (judgeSuspension s b e) (settleKeepAlive _)

theorem changeLane (s : State) (r : Rail) (l : Lane) (c : LaneCause) : recorded s (s.changeLane r l c) :=
  of_told (changeLane_link s r l c)

theorem enterSetup (s : State) (r : Rail) (c : LaneCause) : recorded s (s.enterSetup r c) := by
  unfold State.enterSetup
  dsimp only
  split
  · exact trans (changeLane s r _ _) (changeLane _ r _ _)
  · exact changeLane s r _ _

theorem readyReceived (r : Rail) (n : Byte) (s : State) : recorded s (readyReceived r n s) := by
  unfold Machine.readyReceived
  dsimp only
  split
  · exact changeLane s r _ _
  · exact of_link rfl

theorem setupTimeout (r : Rail) (s : State) : recorded s (setupTimeout r s) := by
  unfold Machine.setupTimeout
  dsimp only
  split
  · exact changeLane s r _ _
  · exact refl s

theorem retry (r : Rail) (s : State) : recorded s (retry r s) := by
  unfold Machine.retry
  split
  · exact enterSetup s r _
  · exact refl s

theorem orderTimedOut (s : State) (r : Rail) : recorded s (s.orderTimedOut r) := by
  unfold State.orderTimedOut
  dsimp only
  split
  · exact changeLane s r _ _
  · exact of_link rfl

/-! ## Due tests, findings and cells -/

theorem dueTestLoop (r : Rail) (n : Nat) : ∀ s : State, recorded s (dueTestLoop r n s) := by
  induction n with
  | zero => exact fun s => refl s
  | succ n ih =>
    intro s
    unfold Machine.dueTestLoop
    split
    · exact refl s
    · split
      · exact trans (trans (of_link (by rfl)) (emit _ _)) (ih _)
      · exact of_link rfl

theorem dueTest (s : State) (r : Rail) : recorded s (s.dueTest r) := dueTestLoop r _ s

theorem dueTests (s : State) : recorded s s.dueTests := trans (dueTest s .a) (dueTest _ .b)

theorem issueFinding (s : State) (r : Rail) (p : Fin 32) (run : PatternRun) (capped : Bool) :
    recorded s (s.issueFinding r p run capped) := by
  have hoffer : ∀ (spray : Option (Fin 7)) (cls : Fin 16) (tick : Int), recorded s (s.markerOffer r spray cls tick) := by
    intro spray cls tick
    unfold State.markerOffer
    split
    · exact refl s
    · exact of (takeOffer_changes s r _ _ _) (by simp)
  have halert : ∀ (u : State) (urgent : Bool) (cls : Fin 16) (tick : Int),
      recorded u (u.updateAlert urgent r cls tick) := by
    intro u urgent cls tick
    unfold State.updateAlert
    split
    · exact of_link rfl
    · exact refl u
  exact trans (trans (trans (hoffer _ _ _) (halert _ _ _ _)) (emit _ _)) (dueTest _ r)

theorem endRunOf (s : State) (r : Rail) (p : Fin 32) : recorded s (s.endRunOf r p) := by
  unfold State.endRunOf
  dsimp only
  split
  · exact trans (of_link (by rfl)) (issueFinding _ _ _ _ _)
  · exact of_link rfl

theorem evalPattern (s : State) (r : Rail) (c : Int) (p : Fin 32) : recorded s (s.evalPattern r c p) := by
  unfold State.evalPattern
  dsimp only
  split
  · split
    · split
      · exact trans (of_link (by rfl)) (issueFinding _ _ _ _ _)
      · exact of_link rfl
    · exact endRunOf s r p
  · exact refl s

theorem endGap (s : State) (r : Rail) : recorded s (s.endGap r) := by
  unfold State.endGap
  dsimp only
  split
  · exact trans (of_link (by rfl)) (emit _ _)
  · exact of_link rfl

theorem evalGap (s : State) (r : Rail) (c : Int) : recorded s (s.evalGap r c) := by
  unfold State.evalGap
  dsimp only
  split
  · exact endGap s r
  · split
    · exact trans (of_link (by rfl)) (emit _ _)
    · exact of_link rfl

theorem foldl {α : Type} {f : State → α → State} (hf : ∀ u a, recorded u (f u a)) (xs : List α) (s : State) :
    recorded s (xs.foldl f s) :=
  foldl_keeps (p := recorded s) (f := f) (fun u a hu => trans hu (hf u a)) xs s (refl s)

theorem evaluate (s : State) (r : Rail) (c : Int) : recorded s (s.evaluate r c) :=
  trans (foldl (f := fun u p => u.evalPattern r c p) (fun u p => evalPattern u r c p) patternNumbers s) (evalGap _ r c)

theorem flush (s : State) (r : Rail) : recorded s (s.flush r) :=
  trans (foldl (f := fun u p => u.endRunOf r p) (fun u p => endRunOf u r p) patternNumbers s) (endGap _ r)

theorem closeCell (s : State) (r : Rail) (d : Bool) : recorded s (s.closeCell r d) := by
  unfold State.closeCell
  dsimp only
  split
  · exact trans (of_link (by rfl)) (evaluate _ _ _)
  · exact of_link rfl

theorem closeCells (r : Rail) (d : Bool) (n : Nat) : ∀ s : State, recorded s (closeCells r d n s) := by
  induction n with
  | zero => exact fun s => refl s
  | succ n ih => exact fun s => trans (closeCell s r d) (ih _)

theorem followCloseLine (s : State) (r : Rail) : recorded s (s.followCloseLine r) := by
  unfold State.followCloseLine
  split
  · exact refl s
  · exact closeCells r false _ s

theorem drainRail (s : State) (r : Rail) : recorded s (s.drainRail r) := by
  unfold State.drainRail
  exact trans (trans (closeCells r true _ s) (closeCells r false 3 _)) (flush _ r)

/-! ## Events -/

theorem drainEnd (s : State) : recorded s s.drainEnd := by
  have hdown : recorded s ((s.laneDown .a).laneDown .b) :=
    trans (of_told (laneDown_link s .a)) (of_told (laneDown_link _ .b))
  unfold State.drainEnd
  exact trans (trans hdown (of_link (by rfl))) (event _ _)

theorem drain (s : State) : recorded s (drain s) := by
  unfold Machine.drain
  split
  · exact trans (trans (drainRail s .a) (drainRail _ .b)) (drainEnd _)
  · exact refl s

theorem testDistance (s : State) : recorded s s.testDistance := by
  have hcycle : ∀ (u : State) (kind : CycleKind), recorded u (u.beginCycle kind) := fun u kind =>
    of (beginCycle_changes u kind) (by simp)
  unfold State.testDistance State.distanceTrigger State.overrunTrigger
  dsimp only
  split
  · split
    · exact trans (of_link (by rfl)) (hcycle _ _)
    · split
      · exact trans (of_link (by rfl)) (eventIf _ _ _)
      · exact of_link rfl
  · exact refl s

theorem stepTimerExpiry (s : State) : recorded s (stepTimerExpiry s) := by
  have hidle : recorded s s.settleOverspeed.cycleIdle :=
    trans (of_told (settleOverspeed_link s)) (of_link (by rfl))
  unfold Machine.stepTimerExpiry State.endCycle
  split
  · exact refl s
  · split
    · exact of (beginStep_changes s _) (by simp)
    · dsimp only
      split
      · exact trans hidle (of (beginCycle_changes _ _) (by simp))
      · exact hidle

theorem firingRecordTimeout (i : Fin 64) (s : State) : recorded s (firingRecordTimeout i s) := by
  unfold Machine.firingRecordTimeout
  split
  · exact trans (trans (of_link (by rfl)) (orderTimedOut _ _)) (of (judgeRelease_changes _ _) (by simp))
  · exact refl s

theorem encoderTick (e : Encoder) (d : Direction) (s : State) : recorded s (encoderTick e d s) := by
  have hticked : recorded s ((s.turn e ((s.odo.quadrature e).ticked d)).setOdo
      ((s.turn e ((s.odo.quadrature e).ticked d)).odo.addDelta e d)) := of_link rfl
  have hmoved : ∀ u : State, recorded u (u.setOdo (u.odo.sourceTick d)).judgeTick := fun u =>
    trans (of_link (by rfl)) (judgeTick _)
  have hchanged : ∀ u : State, recorded u u.cpChanged := fun u =>
    trans (trans (trans (trans (of_link (by rfl)) (testDistance _))
      (followCloseLine _ .a)) (followCloseLine _ .b)) (dueTests _)
  unfold Machine.encoderTick State.sourceTick
  dsimp only
  split
  · split
    · exact trans hticked (hmoved _)
    · exact trans (trans hticked (hmoved _)) (hchanged _)
  · exact hticked

theorem standstillSet (s : State) : recorded s (standstillSet s) := by
  unfold Machine.standstillSet
  split
  · exact refl s
  · have hlead : ∀ u : State, recorded u u.updateLead := fun _ => of_link rfl
    exact trans (trans (trans (trans (of_link (by rfl)) (event _ _)) (settleKeepAlive _)) (hlead _)) (dueTests _)

theorem speedIntervalEnd (s : State) : recorded s (speedIntervalEnd s) :=
  trans (of_link (by rfl)) (dueTests _)

theorem slipWindowEnd (s : State) : recorded s (slipWindowEnd s) := by
  have hdecide : ∀ u : State, recorded u u.decideSlip := by
    intro u
    unfold State.decideSlip
    split
    · exact trans (trans (of_link (by rfl)) (event _ _)) (of_told (failover_link _))
    · split
      · exact trans (of_link (by rfl)) (event _ _)
      · exact refl u
  have hjudge : recorded s s.judgeSlip := by
    unfold State.judgeSlip
    split
    · exact refl s
    · exact trans (of_link (by rfl)) (hdecide _)
  exact trans (trans hjudge (eventIf _ _ _)) (of_link (by rfl))

theorem liftSample (v : Bool) (s : State) : recorded s (liftSample v s) := by
  have haccept : ∀ u : State, recorded u (u.acceptLift v) := by
    intro u
    have hlift : recorded u ((u.setOdo { u.odo with lifted := v }).event (.lift v)) :=
      trans (of_link (by rfl)) (event _ _)
    unfold State.acceptLift
    dsimp only
    split
    · exact trans (trans hlift (markStopping _)) (judged _ _ _)
    · exact trans hlift (judged _ _ _)
  unfold Machine.liftSample
  dsimp only
  split
  · exact trans (of_link (by rfl)) (haccept _)
  · exact of_link rfl

theorem handAll (s : State) (r : Rail) (p : Fin 16) (xs : Vector GateResult 4) (fp : Int) :
    recorded s (s.handAll r p xs fp) := by
  have hhand : ∀ (u : State) (h : PlacedHit), recorded u (u.handOn h) := by
    intro u h
    unfold State.handOn State.enterHit
    dsimp only
    split
    · split
      case h_1 | h_2 => exact refl u
      case h_3 | h_4 => exact of_link rfl
      case h_5 => exact trans (of_link (by rfl)) (emit _ _)
    · exact of_link rfl
  have hgate : ∀ (u : State) (g : Fin 4), recorded u (u.handGate s r p xs fp g) := by
    intro u g
    unfold State.handGate
    split
    · exact refl u
    · exact hhand _ _
    · exact hhand _ _
  have hcoverage : recorded s (s.handCoverage r p fp) := by
    unfold State.handCoverage State.enterCoverage
    dsimp only
    split
    · split
      · exact of_link rfl
      · exact refl s
    · exact refl s
  exact trans hcoverage (foldl hgate fourGates _)

theorem report (r : Rail) (tag probe : Byte) (xs : Vector GateResult 4) (s : State) :
    recorded s (report r tag probe xs s) := by
  have hobserve : ∀ (u : State) (p : Fin 16) (kind : CycleKind), recorded u (u.observeCoupling r p xs kind) :=
    fun u p kind => trans (of_link (by rfl)) (eventIf _ _ _)
  have hhand : ∀ (u : State) (p : Fin 16) (x : FiringRecord), recorded u (u.handIfAdmitted r p xs x) := by
    intro u p x
    unfold State.handIfAdmitted
    split
    · exact handAll u r p xs _
    · exact refl u
  unfold Machine.report
  dsimp only
  split
  case h_4 =>
    exact trans (trans (trans (of_link (by rfl)) (hobserve _ _ _)) (hhand _ _ _))
      (of (completeRecord_changes _ _) (by simp))
  all_goals exact of_link rfl

/-! ## Engines -/

theorem enterIdle (s : State) (r : Rail) : recorded s (s.enterIdle r) :=
  trans (of_link (by rfl)) (dueTest _ r)

theorem beginRecover (s : State) (r : Rail) (m : Mark) : recorded s (s.beginRecover r m) := by
  unfold State.beginRecover
  split
  · exact enterIdle s r
  · exact of_link rfl

theorem afterDashes (s : State) (r : Rail) (m : Mark) : recorded s (s.afterDashes r m) := by
  unfold State.afterDashes
  split
  · exact of_link rfl
  · exact beginRecover s r m

theorem headTaken (r : Rail) (s : State) : recorded s (headTaken r s) := by
  unfold Machine.headTaken
  split
  · split
    · split
      · exact trans (trans (of_link (by rfl)) (emit _ _)) (dueTest _ r)
      · split
        · exact trans (of_link (by rfl)) (emit _ _)
        · exact trans (trans (of_link (by rfl)) (emit _ _)) (dueTest _ r)
    · exact refl s
  · exact refl s

theorem holdEnd (r : Rail) (s : State) : recorded s (holdEnd r s) := by
  unfold Machine.holdEnd
  split
  · split
    · exact of_link rfl
    · exact afterDashes s r _
  · exact refl s

theorem purgeEnd (r : Rail) (s : State) : recorded s (purgeEnd r s) := by
  unfold Machine.purgeEnd
  split
  · exact beginRecover s r _
  · exact refl s

theorem recoverEnd (r : Rail) (s : State) : recorded s (recoverEnd r s) := by
  unfold Machine.recoverEnd
  split
  · exact enterIdle s r
  · exact refl s

theorem markerResume (h : Sender) (a : MarkerResumeArgs) (s : State) : recorded s (markerResume h a s) := by
  have hretry : ∀ r : Rail, recorded s (s.resumeRetry r) := by
    intro r
    unfold State.resumeRetry
    split
    · exact enterIdle s r
    · exact trans (of_link (by rfl)) (enterIdle _ r)
  have hskip : ∀ r : Rail, recorded s (s.resumeSkip r) := by
    intro r
    unfold State.resumeSkip
    split
    · exact enterIdle s r
    · exact trans (trans (of_link (by rfl)) (emit _ _)) (enterIdle _ r)
  unfold Machine.markerResume
  split
  · exact reply _ _ _ _ _
  · split
    · exact reply _ _ _ _ _
    · split
      · dsimp only
        split
        · exact trans (hretry _) (reply _ _ _ _ _)
        · exact trans (hskip _) (reply _ _ _ _ _)
      · exact reply _ _ _ _ _

theorem markerTest (h : Sender) (a : MarkerTestArgs) (s : State) : recorded s (markerTest h a s) := by
  unfold Machine.markerTest
  split
  · split
    · dsimp only
      exact trans (trans (trans (of_link (by rfl)) (emit _ _)) (of_link (by rfl))) (reply _ _ _ _ _)
    · exact reply _ _ _ _ _
  · exact reply _ _ _ _ _

theorem markerCancel (h : Sender) (b : Byte) (s : State) : recorded s (markerCancel h b s) := by
  have hcancelled : ∀ (r : Rail) (q : List MarkerEntry) (u : State), recorded u (cancelAll r q u) := by
    intro r q
    induction q with
    | nil => exact fun u => refl u
    | cons e q ih => exact fun u => trans (emit u _) (ih _)
  have hcut : ∀ (u : State) (r : Rail), recorded u (u.cancelEngine r) := by
    intro u r
    unfold State.cancelEngine
    split
    case h_4 => exact enterIdle u r
    case h_5 => exact refl u
    all_goals exact afterDashes u r _
  unfold Machine.markerCancel
  split
  · exact reply _ _ _ _ _
  · exact trans (trans (trans (of_link (by rfl)) (hcancelled _ _ _)) (hcut _ _)) (reply _ _ _ _ _)

/-! ## Commands that only answer, or write a block and answer -/

theorem startRun (s : State) (h : Sender) : recorded s (s.startRun h) := by
  have hvalues : recorded s s.startValues := trans (of_told (startOdometry_link s)) (of_link (by rfl))
  exact trans (trans (trans (trans (trans hvalues (event _ _)) (judgeSuspension _ _ _)) (of_told (startLane_link _ .a)))
    (of_told (startLane_link _ .b))) (settleKeepAlive _)

theorem changeRun (s : State) (h : Sender) (x : RunState) : recorded s (s.changeRun h x) :=
  trans (of_link (by rfl)) (event _ _)

theorem pauseRun (h : Sender) (s : State) : recorded s (pauseRun h () s) := by
  unfold Machine.pauseRun
  split
  · exact trans (trans (trans (markStopping s) (changeRun _ h .paused)) (judged _ _ _)) (reply _ _ _ _ _)
  · exact reply _ _ _ _ _

theorem resumeRun (h : Sender) (s : State) : recorded s (resumeRun h () s) := by
  unfold Machine.resumeRun
  split
  · exact trans (trans (changeRun s h .running) (judged _ _ _)) (reply _ _ _ _ _)
  · exact reply _ _ _ _ _

theorem endRun (h : Sender) (s : State) : recorded s (endRun h () s) := by
  have hdraining : recorded s (s.enterDraining h) :=
    trans (trans (trans (trans (t := s.recordEndK) (of_link rfl) (markStopping _)) (changeRun _ h .draining))
      (judged _ _ _)) (reply _ _ _ _ _)
  have htaken : recorded s (s.endRunTaken h) := trans hdraining (of (judgeDrain_changes _) (by simp))
  unfold Machine.endRun
  split
  · exact htaken
  · exact htaken
  · exact reply _ _ _ _ _

theorem setParam (h : Sender) (a : SetParamArgs) (s : State) : recorded s (setParam h a s) := by
  have hwritten : ∀ (u : State) (n : Nat), recorded u (u.paramWritten n) := by
    intro u n
    unfold State.paramWritten
    split
    · exact of_told (modeWritten_link u)
    · exact dueTest u .a
    · exact dueTest u .b
    · exact refl u
  unfold Machine.setParam
  split
  · exact reply _ _ _ _ _
  · exact trans (trans (of_link (by rfl)) (hwritten _ _)) (reply _ _ _ _ _)

theorem writeProbe (h : Sender) (a : WriteProbeArgs) (s : State) : recorded s (writeProbe h a s) := by
  unfold Machine.writeProbe
  dsimp only
  split
  · split
    · exact reply _ _ _ _ _
    · split
      · exact reply _ _ _ _ _
      · exact trans (of_link (by rfl)) (reply _ _ _ _ _)
  · exact reply _ _ _ _ _

theorem writeStep (h : Sender) (a : WriteStepArgs) (s : State) : recorded s (writeStep h a s) := by
  unfold Machine.writeStep
  dsimp only
  split
  · split
    · exact reply _ _ _ _ _
    · exact trans (of_link (by rfl)) (reply _ _ _ _ _)
  · exact reply _ _ _ _ _

theorem writePattern (h : Sender) (a : WritePatternArgs) (s : State) : recorded s (writePattern h a s) := by
  unfold Machine.writePattern
  split
  · split
    · exact reply _ _ _ _ _
    · exact trans (of_link (by rfl)) (reply _ _ _ _ _)
  · exact reply _ _ _ _ _

theorem writeSpray (h : Sender) (a : WriteSprayArgs) (s : State) : recorded s (writeSpray h a s) := by
  unfold Machine.writeSpray
  split
  · exact trans (of_link (by rfl)) (reply _ _ _ _ _)
  · exact reply _ _ _ _ _

theorem getParam (h : Sender) (b : Byte) (s : State) : recorded s (getParam h b s) := by
  unfold Machine.getParam
  split
  · exact reply _ _ _ _ _
  · exact reply _ _ _ _ _

theorem readProbe (h : Sender) (b : Byte) (s : State) : recorded s (readProbe h b s) := by
  unfold Machine.readProbe
  split
  · exact reply _ _ _ _ _
  · exact reply _ _ _ _ _

theorem readStep (h : Sender) (b : Byte) (s : State) : recorded s (readStep h b s) := by
  unfold Machine.readStep
  split
  · exact reply _ _ _ _ _
  · exact reply _ _ _ _ _

theorem readPattern (h : Sender) (b : Byte) (s : State) : recorded s (readPattern h b s) := by
  unfold Machine.readPattern
  split
  · exact reply _ _ _ _ _
  · exact reply _ _ _ _ _

theorem readSpray (h : Sender) (b : Byte) (s : State) : recorded s (readSpray h b s) := by
  unfold Machine.readSpray
  split
  · exact reply _ _ _ _ _
  · exact reply _ _ _ _ _

theorem readCell (h : Sender) (a : ReadCellArgs) (s : State) : recorded s (readCell h a s) := by
  unfold Machine.readCell
  dsimp only
  split
  · exact reply _ _ _ _ _
  · split
    · exact reply _ _ _ _ _
    · split
      · exact reply _ _ _ _ _
      · exact reply _ _ _ _ _

theorem readStatus (h : Sender) (b : Byte) (s : State) : recorded s (readStatus h b s) := by
  unfold Machine.readStatus
  split
  · exact trans (reply _ _ _ _ _) (of_link (by rfl))
  · exact reply _ _ _ _ _

theorem addZone (h : Sender) (a : AddZoneArgs) (s : State) : recorded s (addZone h a s) := by
  unfold Machine.addZone
  dsimp only
  split
  · exact reply _ _ _ _ _
  · split
    · exact reply _ _ _ _ _
    · split
      · exact reply _ _ _ _ _
      · split
        · exact reply _ _ _ _ _
        · exact trans (of_link (by rfl)) (reply _ _ _ _ _)

theorem cancelZone (h : Sender) (id : Byte) (s : State) : recorded s (cancelZone h id s) := by
  unfold Machine.cancelZone
  split
  · exact reply _ _ _ _ _
  · split
    · exact trans (of_link (by rfl)) (reply _ _ _ _ _)
    · exact reply _ _ _ _ _

theorem listZones (h : Sender) (s : State) : recorded s (listZones h () s) :=
  trans (reply _ _ _ _ _) (of_link (by rfl))

theorem rebase (h : Sender) (delta : Word32) (s : State) : recorded s (rebase h delta s) := by
  unfold Machine.rebase
  dsimp only
  split
  · exact reply _ _ _ _ _
  · split
    · exact trans (trans (t := s.moveBy _) (of_link rfl) (followLimit _)) (reply _ _ _ _ _)
    · exact reply _ _ _ _ _

end Recorded

/-! ## The Link Controller's own commands -/

namespace Divided

/-- A lane replaced by one with its pages that holds no more than they take. -/
theorem setLane {l m : LinkState} (hl : l.divided) (n : Node) {x : ReportLane}
    (hm : m = { l with lanes := l.lanes.set n x }) (hpages : x.pages = (l.lanes.get n).pages)
    (hfill : x.fill ≤ x.size) : m.divided := by
  subst hm
  obtain ⟨⟨hi, hone⟩, hsum, hintake, hlanes⟩ := hl
  have hkept : ∀ m : Node, ((l.lanes.set n x).get m).pages = (l.lanes.get m).pages := by
    intro m
    by_cases hm : m = n
    · subst hm
      rw [PerNode.get_set_same, hpages]
    · rw [PerNode.get_set_ne _ hm]
  refine ⟨⟨hi, fun m => by rw [hkept]; exact hone m⟩, ?_, hintake, fun m => ?_⟩
  · rw [hkept, hkept, hkept]
    exact hsum
  · by_cases hm : m = n
    · subst hm
      rw [PerNode.get_set_same]
      exact hfill
    · rw [PerNode.get_set_ne _ hm]
      exact hlanes m

/-- An intake that holds no more. -/
theorem setIntake {l m : LinkState} (hl : l.divided) (hpages : m.intakePages = l.intakePages) (hlanes : m.lanes = l.lanes)
    (hfill : m.intakeFill ≤ l.intakeFill) : m.divided := by
  obtain ⟨hone, hsum, hintake, hfits⟩ := hl
  unfold LinkState.divided
  rw [hpages, hlanes]
  exact ⟨hone, hsum, hfill.trans hintake, hfits⟩

theorem takeHead_sum (q : List (List Byte)) (h : Sender) (code : Byte) :
    ((takeHead q h code).map List.length).sum ≤ (q.map List.length).sum := by
  cases q with
  | nil => exact le_refl _
  | cons f rest =>
    unfold takeHead
    dsimp only
    split
    · simp
    · exact le_refl _

theorem take {s : State} (hs : s.link.divided) (h : Sender) (code : Byte) : (s.take h code).link.divided :=
  setIntake hs rfl rfl (takeHead_sum _ h code)

theorem reply {s : State} (hs : s.link.divided) (h : Sender) (code : Byte) (x : Result) (bs : List Byte) :
    (s.reply h code x bs).link.divided := Recorded.keeps (Recorded.reply s h code x bs) hs

/-- A frame is queued where it fits (R168). -/
theorem commandFrameReceived {s : State} (hs : s.link.divided) (content : List Bool) :
    (commandFrameReceived content s).link.divided := by
  have hsettled : (s.link.settleFrame (s.link.judgeFrame content)).divided := by
    unfold LinkState.settleFrame
    split
    case h_5 bs hverdict =>
      have hroom : s.link.intakeFill + bs.length ≤ s.link.intakePages * 512 := by
        unfold LinkState.judgeFrame at hverdict
        split at hverdict
        · cases hverdict
        · split at hverdict
          · cases hverdict
          split at hverdict
          · cases hverdict
          split at hverdict
          · cases hverdict
          split at hverdict
          · cases hverdict
          split at hverdict
          · cases hverdict
          case isFalse hfits =>
            cases hverdict
            exact Nat.not_lt.1 hfits
      obtain ⟨hone, hsum, -, hfits⟩ := hs
      refine ⟨hone, hsum, ?_, hfits⟩
      simpa [LinkState.intakeFill] using hroom
    all_goals exact setIntake hs rfl rfl (le_refl _)
  unfold Machine.commandFrameReceived
  split
  · exact setIntake hsettled rfl rfl (le_refl _)
  · exact hs

theorem moveHead_fits {l : ReportLane} {r : Record} {rest : List Record} (hl : l.fill ≤ l.size) (hpages : 1 ≤ l.pages)
    (hrecords : l.records = r :: rest) : (l.moveHead r rest).fill ≤ (l.moveHead r rest).size := by
  unfold ReportLane.fill ReportLane.size at hl
  rw [hrecords, List.map_cons, List.sum_cons] at hl
  unfold ReportLane.moveHead
  dsimp only
  split
  case isTrue howes =>
    rw [Bool.and_eq_true, List.isEmpty_iff] at howes
    obtain ⟨rfl, -⟩ := howes
    unfold ReportLane.fill ReportLane.size ReportLane.makeLoss
    simp only [List.nil_append, List.map_cons, List.map_nil, List.sum_cons, List.sum_nil, lossRecord_size]
    omega
  case isFalse =>
    unfold ReportLane.fill ReportLane.size
    dsimp only
    omega

theorem sendByte_fits {l : ReportLane} (hl : l.fill ≤ l.size) (hpages : 1 ≤ l.pages) :
    l.sendByte.fill ≤ l.sendByte.size := by
  unfold ReportLane.sendByte
  split
  · exact hl
  · split
    · exact hl
    case h_2 r rest hrecords => exact moveHead_fits hl hpages hrecords

theorem sendByte_pages (l : ReportLane) : l.sendByte.pages = l.pages := by
  unfold ReportLane.sendByte ReportLane.moveHead
  dsimp only
  split
  · rfl
  · split
    · rfl
    · split <;> rfl

/-- A lane without records is within its pages. -/
theorem empty_fits {l : ReportLane} (h : l.records = []) : l.fill ≤ l.size := by
  unfold ReportLane.fill
  rw [h]
  exact Nat.zero_le _

theorem partition {s : State} (hs : s.link.divided) (h : Sender) (a : PartitionArgs) :
    (partition h a s).link.divided := by
  unfold Machine.partition
  split
  · exact reply hs _ _ _ _
  · split
    · exact reply hs _ _ _ _
    case isFalse hfits =>
      have hfits : partitionFits a = true := by simpa using hfits
      simp only [partitionFits, Bool.and_eq_true, decide_eq_true_eq] at hfits
      obtain ⟨⟨⟨⟨hi, h1⟩, h2⟩, h3⟩, hsum⟩ := hfits
      refine reply (s := s.setLink (s.link.repartition s.odo.cp a))
        ⟨⟨hi, fun n => ?_⟩, hsum, Nat.zero_le _, fun n => ?_⟩ _ _ _ _
      · cases n
        · exact h1
        · exact h2
        · exact h3
      · cases n
        all_goals exact empty_fits rfl

theorem warmReset {s : State} (hs : s.link.divided) (c : ResetCause) : (s.warmReset c).link.divided := by
  have hwarm : (s.link.warm c).divided := by
    obtain ⟨⟨hi, hone⟩, hsum, -, -⟩ := hs
    refine ⟨⟨hi, fun n => ?_⟩, hsum, Nat.zero_le _, fun n => ?_⟩
    · cases n
      · exact hone .n1
      · exact hone .n2
      · exact hone .n3
    · cases n
      all_goals exact empty_fits rfl
  have hsent : ∀ (n : Node) (cp : Int) (x : Record) (l : LinkState), l.divided → (l.sendTo n cp x).divided := by
    intro n cp x l hl
    exact setLane hl n rfl (accept_kept _ cp x).1 (accept_fits (hl.2.2.2 n) cp x)
  exact hsent _ _ _ _ (hsent _ _ _ _ (hsent _ _ _ _ hwarm))

theorem cold : LinkState.cold.divided := by
  refine ⟨⟨by decide, fun n => ?_⟩, rfl, Nat.zero_le _, fun n => ?_⟩
  · cases n
    all_goals exact Nat.le_of_ble_eq_true rfl
  · cases n
    all_goals exact empty_fits rfl

/-- A master command keeps the division where its owner only records. -/
theorem command {α : Type} {s : State} {m : Sender} {code : Byte} {ps : Params α} {owner : α → State → State}
    (hs : s.link.divided) (howner : ∀ (a : α) (t : State), recorded t (owner a t)) :
    (s.command m code ps owner).link.divided :=
  command_keeps (p := fun u => u.link.divided) hs (fun hu => take hu m code) (fun _ _ hu => reply hu _ _ _ _)
    fun a u hu => Recorded.keeps (howner a u) hu

/-- A master command keeps the division where its owner does. -/
theorem command_of {α : Type} {s : State} {m : Sender} {code : Byte} {ps : Params α} {owner : α → State → State}
    (hs : s.link.divided) (howner : ∀ (a : α) (t : State), t.link.divided → (owner a t).link.divided) :
    (s.command m code ps owner).link.divided :=
  command_keeps (p := fun u => u.link.divided) hs (fun hu => take hu m code) (fun _ _ hu => reply hu _ _ _ _) howner

theorem unlessHeld {s : State} {f : State → State} (hs : s.link.divided) (hf : recorded s (f s)) :
    (s.unlessHeld f).link.divided := unlessHeld_keeps (p := fun u => u.link.divided) hs (Recorded.keeps hf hs)

theorem exec (i : Instr) (s t : State) (hs : s.link.divided) (h : exec i s = .next t) : t.link.divided := by
  have next : ∀ u : State, Machine.exec i s = .next u → u.link.divided → t.link.divided := fun u hu hd =>
    exec_elim (p := fun v => v.link.divided) h hu hd
  cases i with
  | resetRelease l => exact next _ rfl cold
  | encoderTick e d => exact next _ rfl (unlessHeld hs (Recorded.encoderTick e d s))
  | standstillSet => exact next _ rfl (unlessHeld hs (Recorded.standstillSet s))
  | speedIntervalEnd => exact next _ rfl (unlessHeld hs (Recorded.speedIntervalEnd s))
  | slipWindowEnd => exact next _ rfl (unlessHeld hs (Recorded.slipWindowEnd s))
  | liftSample v => exact next _ rfl (unlessHeld hs (Recorded.liftSample v s))
  | stepTimerExpiry => exact next _ rfl (unlessHeld hs (Recorded.stepTimerExpiry s))
  | firingRecordTimeout j => exact next _ rfl (unlessHeld hs (Recorded.firingRecordTimeout j s))
  | ready r n => exact next _ rfl (unlessHeld hs (Recorded.readyReceived r n s))
  | setupTimeout r => exact next _ rfl (unlessHeld hs (Recorded.setupTimeout r s))
  | retry r => exact next _ rfl (unlessHeld hs (Recorded.retry r s))
  | report r tag probe xs => exact next _ rfl (unlessHeld hs (Recorded.report r tag probe xs s))
  | drain => exact next _ rfl (unlessHeld hs (Recorded.drain s))
  | headTaken r => exact next _ rfl (unlessHeld hs (Recorded.headTaken r s))
  | holdEnd r => exact next _ rfl (unlessHeld hs (Recorded.holdEnd r s))
  | purgeEnd r => exact next _ rfl (unlessHeld hs (Recorded.purgeEnd r s))
  | recoverEnd r => exact next _ rfl (unlessHeld hs (Recorded.recoverEnd r s))
  | linkFrame =>
    exact next _ rfl (unlessHeld_keeps (p := fun u => u.link.divided) hs (setIntake hs rfl rfl (le_refl _)))
  | reportLaneByte n =>
    obtain ⟨⟨-, hone⟩, -, -, hfits⟩ := id hs
    exact next _ rfl (unlessHeld_keeps (p := fun u => u.link.divided) hs
      (setLane hs n rfl (sendByte_pages _) (sendByte_fits (hfits n) (hone n))))
  | commandFrameReceived c =>
    exact next _ rfl (unlessHeld_keeps (p := fun u => u.link.divided) hs (commandFrameReceived hs c))
  | delimiter =>
    refine next _ rfl (unlessHeld_keeps (p := fun u => u.link.divided) hs ?_)
    unfold delimiter
    split
    · exact setIntake hs rfl rfl (le_refl _)
    · exact hs
  | abort =>
    refine next _ rfl (unlessHeld_keeps (p := fun u => u.link.divided) hs ?_)
    unfold abort
    split
    · exact setIntake hs rfl rfl (le_refl _)
    · exact hs
  | oversize =>
    refine next _ rfl (unlessHeld_keeps (p := fun u => u.link.divided) hs ?_)
    unfold oversize
    split
    · exact setIntake hs rfl rfl (le_refl _)
    · exact hs
  | commandFieldEnd field =>
    have hfield : (s.link.fieldEnd field).divided := by
      unfold LinkState.fieldEnd
      split
      · split
        · exact setIntake hs rfl rfl (le_refl _)
        · exact hs
      · split
        · exact setIntake hs rfl rfl (le_refl _)
        · exact setIntake hs rfl rfl (le_refl _)
    refine next _ rfl (unlessHeld_keeps (p := fun u => u.link.divided) hs ?_)
    unfold commandFieldEnd
    dsimp only
    split
    · exact hfield
    · exact hfield
  | linkBreak =>
    exact next _ rfl (unlessHeld_keeps (p := fun u => u.link.divided) hs
      (linkBreak_keeps (p := fun u => u.link.divided) hs (warmReset hs _)))
  | unknownCommand m code =>
    exact next _ rfl (unlessHeld_keeps (p := fun u => u.link.divided) hs (reply (take hs m code) _ _ _ _))
  | startRun m p =>
    exact next _ rfl (command_of hs fun _ u hu => startRun_keeps (p := fun v => v.link.divided)
      (fun _ _ _ hv => reply hv _ _ _ _) hu (Recorded.keeps (Recorded.startRun u m) hu))
  | pauseRun m p => exact next _ rfl (command hs fun _ u => Recorded.pauseRun m u)
  | resumeRun m p => exact next _ rfl (command hs fun _ u => Recorded.resumeRun m u)
  | endRun m p => exact next _ rfl (command hs fun _ u => Recorded.endRun m u)
  | warmReset m p => exact next _ rfl (command_of hs fun _ u hu => warmReset hu _)
  | setParam m p => exact next _ rfl (command hs (Recorded.setParam m))
  | getParam m p => exact next _ rfl (command hs (Recorded.getParam m))
  | writeProbe m p => exact next _ rfl (command hs (Recorded.writeProbe m))
  | readProbe m p => exact next _ rfl (command hs (Recorded.readProbe m))
  | writeStep m p => exact next _ rfl (command hs (Recorded.writeStep m))
  | readStep m p => exact next _ rfl (command hs (Recorded.readStep m))
  | writePattern m p => exact next _ rfl (command hs (Recorded.writePattern m))
  | readPattern m p => exact next _ rfl (command hs (Recorded.readPattern m))
  | writeSpray m p => exact next _ rfl (command hs (Recorded.writeSpray m))
  | readSpray m p => exact next _ rfl (command hs (Recorded.readSpray m))
  | addZone m p => exact next _ rfl (command hs (Recorded.addZone m))
  | cancelZone m p => exact next _ rfl (command hs (Recorded.cancelZone m))
  | listZones m p => exact next _ rfl (command hs fun _ u => Recorded.listZones m u)
  | markerResumeRetry m p => exact next _ rfl (command hs (Recorded.markerResume m))
  | markerResumeSkip m p => exact next _ rfl (command hs (Recorded.markerResume m))
  | markerTest m p => exact next _ rfl (command hs (Recorded.markerTest m))
  | markerCancel m p => exact next _ rfl (command hs (Recorded.markerCancel m))
  | rebase m p => exact next _ rfl (command hs (Recorded.rebase m))
  | readCell m p => exact next _ rfl (command hs (Recorded.readCell m))
  | readStatus m p => exact next _ rfl (command hs (Recorded.readStatus m))
  | subscribe m p =>
    refine next _ rfl (command_of hs fun a u hu => ?_)
    obtain ⟨-, -, -, hfits⟩ := id hu
    unfold subscribe
    split
    · exact reply hu _ _ _ _
    · exact reply (setLane hu m.node rfl (by rfl) (by exact hfits m.node)) _ _ _ _
  | flushLane m p =>
    exact next _ rfl (command_of hs fun a u hu => reply (setLane hu m.node rfl (by rfl) (empty_fits (by rfl))) _ _ _ _)
  | partition m p => exact next _ rfl (command_of hs fun a u hu => partition hu m a)
  | _ => exact Recorded.keeps (Recorded.of (exec_changes _ s t h) (by simp [touches])) hs

end Divided

/-- Settles O57: what a command gives to a lane passes `ReportLane.accept`, and the link's own commands are taken one
by one. -/
theorem queueMemoryStaysDivided : Obligations.QueueMemoryStaysDivided := by
  unfold Obligations.QueueMemoryStaysDivided
  rw [show queueMemorySound = fun s => s.link.divided from funext fun s => propext (queueMemorySound_iff s)]
  refine kept_of_exec_edge (fun s t h hs => Recorded.keeps (Recorded.of h (by simp)) hs) Divided.exec fun s t h hs => ?_
  have hlink : t.link.intakePages = s.link.intakePages ∧ t.link.intake = s.link.intake ∧ t.link.lanes = s.link.lanes :=
    ⟨congrArg (·.intakePages) h.link, congrArg (·.intake) h.link, congrArg (·.lanes) h.link⟩
  obtain ⟨hpages, hintake, hlanes⟩ := hlink
  exact Divided.setIntake hs hpages hlanes (by unfold LinkState.intakeFill; rw [hintake])

end Sys2Proof.Machine
end

section
/-! PROOFS. The firing sequence: a lane's part of a step, the triggers, the end of a step and of a record (chapter 3). -/
namespace Sys2Proof.Machine

/-! ## Answers -/

/-- An event outside cold reset is answered with its own effect. -/
theorem answers_free {i : Instr} {s : State} {f : State → State} {p : State → Prop}
    (hexec : exec i s = .next (s.unlessHeld f)) (hheld : s.held = false) (hp : p (f s)) : answers i s p :=
  answers_next (hexec.trans (congrArg Host.Outcome.next (unlessHeld_free hheld f))) hp

/-- A master command with the index's parameters is answered by its owner, its frame gone from the intake. -/
theorem answers_command {α : Type} {i : Instr} {s : State} {m : Sender} {code : Byte} {a : α}
    {owner : α → State → State} {p : State → Prop} (hexec : exec i s = .next (s.command m code (.fields a) owner))
    (hheld : s.held = false) (hp : p (owner a (s.take m code))) : answers i s p :=
  answers_next (hexec.trans (congrArg Host.Outcome.next (command_fields hheld m code a owner))) hp

/-! ## A lane's part of a step (R42, R48) -/

theorem fires_iff (s : State) (k : Fin 16) (r : Rail) : s.fires k r = true ↔ s.laneSet k r ≠ 0
    ∧ (s.lanes.get r).state = .ok ∧ (s.seq.ring[ringSlot s.seq.tagCounter]).outstanding = false := by
  simp [State.fires, and_assoc]

/-- Settles O12: the mask by `maskFold`, the part by its guard. -/
theorem lanePartIssuesOrder : Obligations.LanePartIssuesOrder := by
  intro k r s
  refine ⟨maskFold fun p => (s.probes[probeNo r p]).enabled && (s.seq.steps[k]).probeSet.getLsbD (probeNo r p).val, ?_⟩
  split
  case isTrue h =>
    exact if_pos ((fires_iff s k r).2 h)
  case isFalse h => exact if_neg (mt (fires_iff s k r).1 h)

/-! ## The keep-alive trigger (R40, R44) -/

theorem keepAliveRuns_iff (s : State) : s.keepAliveRuns = true ↔ s.odo.lifted = false
    ∧ ((s.run.state = .running ∧ s.odo.standstill = true) ∨ s.run.state = .paused) := by
  simp [State.keepAliveRuns]

theorem keepaliveTrigger_idle {s : State} (hruns : s.keepAliveRuns = true) (hidle : s.seq.cycle = .idle) :
    keepaliveTrigger s = (s.setSeq { s.seq with keepAliveTimer := 0 }).beginCycle .keepalive := by
  unfold keepaliveTrigger
  rw [if_pos hruns, hidle]

theorem keepaliveTrigger_stepping {s : State} (hruns : s.keepAliveRuns = true) (hbusy : s.seq.cycle ≠ .idle) :
    keepaliveTrigger s = s.setSeq { s.seq with keepAliveTimer := 0 } := by
  unfold keepaliveTrigger
  rw [if_pos hruns]
  cases hcycle : s.seq.cycle with
  | idle => exact absurd hcycle hbusy
  | stepping k => rfl

/-- Settles O9: the trigger in IDLE begins step 0, and is dropped in a cycle. -/
theorem keepaliveBeginsCycle : Obligations.KeepaliveBeginsCycle := by
  intro s hheld
  refine answers_free rfl hheld ?_
  split
  case isFalse hstill => exact if_neg (mt (keepAliveRuns_iff s).1 hstill)
  case isTrue hcondition =>
    have hruns := (keepAliveRuns_iff s).2 hcondition
    have hchanges : changesOnly [.seq, .lanes] s (keepaliveTrigger s) := keepaliveTrigger_changes s
    by_cases hidle : s.seq.cycle = .idle
    · have hbegun := keepaliveTrigger_idle hruns hidle
      by_cases hcount : s.params.stepCount = 0
      · have hnone := hbegun.trans (beginCycle_none (s.setSeq _) _ hcount)
        rw [hnone] at hchanges ⊢
        exact ⟨rfl, rfl, rfl, hchanges, fun _ h => absurd hcount h, fun _ _ => rfl, fun h => absurd hidle h⟩
      · obtain ⟨hcycle, hkind, hoverrun, hstopping, htrigger, hpending, -, halive, htimer⟩ :=
          beginCycle_seq (s.setSeq { s.seq with keepAliveTimer := 0 }) .keepalive hcount
        rw [← hbegun] at hcycle hkind hoverrun hstopping htrigger hpending halive htimer
        refine ⟨halive, htrigger, hpending, hchanges, fun _ _ => ⟨hcycle, hkind, hoverrun, hstopping, htimer, ?_⟩,
          fun _ h => absurd h hcount, fun h => absurd hidle h⟩
        exact hbegun.trans (beginCycle_eq (s.setSeq _) _ hcount)
    · have hdropped := keepaliveTrigger_stepping hruns hidle
      rw [hdropped] at hchanges ⊢
      exact ⟨rfl, rfl, rfl, hchanges, fun h => absurd h hidle, fun h => absurd h hidle, fun _ => rfl⟩

/-! ## The distance trigger (R39, R44, R45) -/

theorem distanceDue_iff (s : State) : s.distanceDue = true ↔ s.run.state = .running ∧ s.run.suspension = false
    ∧ s.odo.standstill = false ∧ s.params.fireSpacing ≤ (s.odo.cp - s.seq.lastTrigger).natAbs := by
  simp [State.distanceDue, State.distanceAllowed, and_assoc]

theorem testDistance_due {s : State} (hdue : s.distanceDue = true) : s.testDistance = s.distanceTrigger := if_pos hdue

theorem distanceTrigger_idle {s : State} (hidle : s.seq.cycle = .idle) :
    s.distanceTrigger = (s.setSeq { s.seq with lastTrigger := s.odo.cp }).beginCycle .distance := by
  unfold State.distanceTrigger
  rw [hidle]

/-- In a cycle a trigger becomes pending, and a second one is an overrun with OVERSPEED (R44, R45). -/
theorem distanceTrigger_stepping {s : State} {k : Nat} (hcycle : s.seq.cycle = .stepping k) :
    s.distanceTrigger.seq = { s.seq with
        lastTrigger := s.odo.cp, pendingTrigger := true, overrun := s.seq.overrun || s.seq.pendingTrigger
        overspeed := s.seq.overspeed || s.seq.pendingTrigger }
      ∧ s.distanceTrigger.lanes = s.lanes
      ∧ s.distanceTrigger.link = s.link.told s.odo.cp
          (if s.seq.pendingTrigger = true ∧ s.seq.overspeed = false then [.overspeed true s.odo.speed k] else []) := by
  unfold State.distanceTrigger
  rw [hcycle]
  dsimp only
  cases s.seq.pendingTrigger with
  | true =>
    refine ⟨?_, ?_, ?_⟩
    · simp [State.overrunTrigger]
    · simp [State.overrunTrigger, State.eventIf]
      split <;> rfl
    · simp [State.overrunTrigger, eventIf_link]
  | false => simp

/-- Settles O11: the trigger in IDLE and in a cycle. -/
theorem distanceTriggerIsTested : Obligations.DistanceTriggerIsTested := by
  intro s
  split
  case isFalse hnot => exact if_neg (mt (distanceDue_iff s).1 hnot)
  case isTrue hcondition =>
    have hdue := (distanceDue_iff s).2 hcondition
    have hchanges := testDistance_changes s
    rw [testDistance_due hdue] at hchanges ⊢
    split
    case h_1 hidle =>
      rw [distanceTrigger_idle hidle] at hchanges ⊢
      by_cases hcount : s.params.stepCount = 0
      · have hnone := beginCycle_none (s.setSeq { s.seq with lastTrigger := s.odo.cp }) .distance hcount
        rw [hnone] at hchanges ⊢
        exact ⟨rfl, hchanges, fun _ => rfl, fun h => absurd hcount h⟩
      · obtain ⟨hcycle, hkind, -, -, htrigger, -⟩ :=
          beginCycle_seq (s.setSeq { s.seq with lastTrigger := s.odo.cp }) .distance hcount
        exact ⟨htrigger, hchanges, fun h => absurd h hcount,
          fun _ => ⟨hcycle, hkind, beginCycle_eq (s.setSeq _) _ hcount⟩⟩
    case h_2 k hstepping =>
      obtain ⟨hseq, hlanes, hlink⟩ := distanceTrigger_stepping hstepping
      rw [hseq]
      exact ⟨rfl, hchanges, hstepping, rfl, rfl, rfl, hlanes, hlink⟩

/-! ## The end of a step (R43) -/

theorem distanceAllowed_iff (s : State) : s.distanceAllowed = true ↔ s.run.state = .running
    ∧ s.run.suspension = false ∧ s.odo.standstill = false := by
  simp [State.distanceAllowed, and_assoc]

/-- The cycle over, with OVERSPEED settled and no trigger pending (R43, R45). -/
theorem settleOverspeed_idle (s : State) : s.settleOverspeed.cycleIdle = { s with
    seq := { s.seq with
      cycle := .idle, stepTimer := 0, pendingTrigger := false, overspeed := s.seq.overspeed && s.seq.overrun }
    link := s.link.told s.odo.cp
      (if s.seq.overspeed = true ∧ s.seq.overrun = false then [.overspeed false 0 0] else []) } := by
  unfold State.settleOverspeed
  cases hspeed : s.seq.overspeed with
  | false => simp [State.cycleIdle, State.setSeq, hspeed]
  | true =>
    cases hrun : s.seq.overrun with
    | true => simp [State.cycleIdle, State.setSeq, hspeed]
    | false => simp [State.cycleIdle, State.setSeq, State.event, State.emit, State.setLink, LinkState.told]

theorem stepTimerExpiry_next {s : State} {k : Nat} (hcycle : s.seq.cycle = .stepping k)
    (hnext : s.seq.stopping = false ∧ k + 1 < s.params.stepCount) : stepTimerExpiry s = s.beginStep (nextStep k) := by
  unfold stepTimerExpiry
  rw [hcycle]
  simp [hnext]

theorem stepTimerExpiry_end {s : State} {k : Nat} (hcycle : s.seq.cycle = .stepping k)
    (hlast : ¬ (s.seq.stopping = false ∧ k + 1 < s.params.stepCount)) : stepTimerExpiry s = s.endCycle := by
  unfold stepTimerExpiry
  rw [hcycle]
  dsimp only
  rw [if_neg]
  simpa using hlast

/-- The end of a cycle begins a DISTANCE cycle where a trigger is pending and the conditions hold (R43). -/
theorem endCycle_eq (s : State) : s.endCycle =
    if s.seq.pendingTrigger = true ∧ s.run.state = .running ∧ s.run.suspension = false ∧ s.odo.standstill = false
      then s.settleOverspeed.cycleIdle.beginCycle .distance else s.settleOverspeed.cycleIdle := by
  have hpending : s.settleOverspeed.seq.pendingTrigger = s.seq.pendingTrigger := by rw [settleOverspeed_seq]
  have hallowed : s.settleOverspeed.distanceAllowed = s.distanceAllowed := by
    have hchanges := settleOverspeed_changes s
    unfold State.distanceAllowed
    rw [changesOnly_same hchanges .run (by simp), changesOnly_same hchanges .odo (by simp)]
  unfold State.endCycle
  dsimp only
  rw [hpending, hallowed]
  simp only [Bool.and_eq_true, distanceAllowed_iff]

/-- The end of a cycle, from the state in which it is over (R43, R45). -/
theorem endCycle_spec (s ended : State) (hended : ended = s.settleOverspeed.cycleIdle) :
    s.endCycle.seq.overspeed = (s.seq.overspeed && s.seq.overrun) ∧ s.endCycle.seq.pendingTrigger = false
      ∧ s.endCycle.seq.lastTrigger = s.seq.lastTrigger
      ∧ (if s.seq.pendingTrigger = true ∧ s.run.state = .running ∧ s.run.suspension = false
            ∧ s.odo.standstill = false ∧ s.params.stepCount ≠ 0
          then s.endCycle.seq.cycle = .stepping 0 ∧ s.endCycle.seq.kind = .distance
            ∧ s.endCycle = stepBegun (ended.setSeq { ended.seq with
                kind := .distance, overrun := false, stopping := false }) 0
          else s.endCycle.seq.cycle = .idle ∧ s.endCycle = ended) := by
  have hstate := hended.trans (settleOverspeed_idle s)
  have hspeed : ended.seq.overspeed = (s.seq.overspeed && s.seq.overrun) := by rw [hstate]
  have htrigger : ended.seq.lastTrigger = s.seq.lastTrigger := by rw [hstate]
  have hpending : ended.seq.pendingTrigger = false := by rw [hstate]
  have hidle : ended.seq.cycle = .idle := by rw [hstate]
  have hparams : ended.params = s.params := by rw [hstate]
  have hend := endCycle_eq s
  rw [← hended] at hend
  split
  case isTrue hstarts =>
    obtain ⟨hp, hr, hu, hd, hcount⟩ := hstarts
    rw [if_pos ⟨hp, hr, hu, hd⟩] at hend
    rw [← hparams] at hcount
    obtain ⟨h1, h2, -, -, h3, h4, h5, -⟩ := beginCycle_seq ended .distance hcount
    rw [hend]
    exact ⟨h5.trans hspeed, h4.trans hpending, h3.trans htrigger, h1, h2, beginCycle_eq _ _ hcount⟩
  case isFalse hnone =>
    have hstays : s.endCycle = ended := by
      rw [hend]
      split
      case isFalse => rfl
      case isTrue hwaits =>
        obtain ⟨hp, hr, hu, hd⟩ := hwaits
        refine beginCycle_none ended .distance ?_
        rw [hparams]
        exact not_not.1 fun hcount => hnone ⟨hp, hr, hu, hd, hcount⟩
    rw [hstays]
    exact ⟨hspeed, hpending, htrigger, hidle, rfl⟩

/-- Settles O10: the next step, or the end of the cycle with the trigger that waited. -/
theorem stepEndsOrCycleEnds : Obligations.StepEndsOrCycleEnds := by
  intro s hheld hsteps
  refine answers_free rfl hheld ⟨stepTimerExpiry_changes s, ?_⟩
  cases hcycle : s.seq.cycle with
  | idle =>
    unfold stepTimerExpiry
    rw [hcycle]
  | stepping k =>
    dsimp only
    split
    case isTrue hnext =>
      have hk : nextStep k = (⟨k + 1, by omega⟩ : Fin 16) := Fin.ext (Nat.mod_eq_of_lt (by omega))
      rw [stepTimerExpiry_next hcycle hnext, hk]
      obtain ⟨h1, h2, h3, -, -, h4, h5, -⟩ := beginStep_seq s ⟨k + 1, by omega⟩
      refine ⟨h1, h2, h3, h4, h5, fun j hj => ?_⟩
      rw [show j = (⟨k + 1, by omega⟩ : Fin 16) from Fin.ext hj]
      rfl
    case isFalse hlast =>
      rw [stepTimerExpiry_end hcycle hlast]
      exact endCycle_spec s _ (settleOverspeed_idle s).symm

/-! ## A record's deadline (R49, R60) -/

/-- An order released by timeout adds to its lane's count, and the third faults an OK lane. -/
theorem orderTimedOut_lanes (s : State) (r : Rail) :
    ((s.orderTimedOut r).lanes.get r).incomplete = min ((s.lanes.get r).incomplete + 1) 3
      ∧ ((s.orderTimedOut r).lanes.get r).state =
          (if (s.lanes.get r).state = .ok ∧ 2 ≤ (s.lanes.get r).incomplete then .fault else (s.lanes.get r).state)
      ∧ (∀ q : Rail, q ≠ r → (s.orderTimedOut r).lanes.get q = s.lanes.get q)
      ∧ (s.orderTimedOut r).link = s.link.told s.odo.cp
          (if (s.lanes.get r).state = .ok ∧ 2 ≤ (s.lanes.get r).incomplete
            then [.laneState r .fault .ok (s.lanes.get r).setupNumber .incompleteOrders] else []) := by
  have hthree : min ((s.lanes.get r).incomplete + 1) 3 = 3 ↔ 2 ≤ (s.lanes.get r).incomplete := by omega
  unfold State.orderTimedOut
  dsimp only
  by_cases hfault : (s.lanes.get r).state = .ok ∧ 2 ≤ (s.lanes.get r).incomplete
  · obtain ⟨hok, htwo⟩ := hfault
    rw [if_pos ⟨hthree.2 htwo, hok⟩, if_pos ⟨hok, htwo⟩, if_pos ⟨hok, htwo⟩, changeLane_link]
    refine ⟨?_, ?_, fun q hq => ?_, ?_⟩
    · simp [State.changeLane, Lane.withdrawFires]
    · simp [State.changeLane, Lane.withdrawFires]
    · simp [State.changeLane, State.setLane, PerRail.get_set_ne _ hq]
    · simp [Lane.withdrawFires, hok]
  · rw [if_neg (fun h => hfault ⟨h.2, hthree.1 h.1⟩), if_neg hfault, if_neg hfault]
    refine ⟨?_, ?_, fun q hq => ?_, rfl⟩
    · simp
    · simp
    · simp [State.setLane, PerRail.get_set_ne _ hq]

/-- Settles O13: the slot is freed, the lane told, the drain judged. -/
theorem recordTimesOut : Obligations.RecordTimesOut := by
  intro i s hheld
  refine answers_free rfl hheld ?_
  split
  case isTrue hfree =>
    unfold firingRecordTimeout
    rw [if_neg fun h => absurd (hfree.symm.trans h) Bool.false_ne_true]
  case isFalse hout =>
    have hchanges := firingRecordTimeout_changes i s
    have htimed : firingRecordTimeout i s =
        ((s.freeSlot i).orderTimedOut s.seq.ring[i].lane).judgeRelease s.seq.ring[i].kind := if_pos (by simpa using hout)
    obtain ⟨hcount, hstate, hother, hlink⟩ := orderTimedOut_lanes (s.freeSlot i) (s.seq.ring[i]).lane
    have htold := orderTimedOut_changes (s.freeSlot i) (s.seq.ring[i]).lane
    have hreleased := judgeRelease_changes ((s.freeSlot i).orderTimedOut s.seq.ring[i].lane) s.seq.ring[i].kind
    have hseq : (firingRecordTimeout i s).seq = (s.freeSlot i).seq := by
      rw [htimed, changesOnly_same hreleased .seq (by simp), orderTimedOut_seq]
    have hlanes : (firingRecordTimeout i s).lanes = ((s.freeSlot i).orderTimedOut s.seq.ring[i].lane).lanes := by
      rw [htimed]
      exact changesOnly_same hreleased .lanes (by simp)
    rw [hseq, hlanes]
    refine ⟨?_, fun j hj => freeSlot_ne s i hj, rfl, hcount, hstate, hother, ?_, ?_, hchanges⟩
    · rw [freeSlot_same]
    · rw [htimed, changesOnly_same hreleased .link (by simp)]
      exact hlink
    · rw [htimed]
      refine judgeRelease_pending s _ i _ ?_ (fun j hj => ?_) ?_ ?_
      · rw [orderTimedOut_seq, freeSlot_same]
      · rw [orderTimedOut_seq, freeSlot_ne s i hj]
      · rw [changesOnly_same htold .run (by simp)]
        rfl
      · rw [changesOnly_same htold .pending (by simp)]
        rfl

end Sys2Proof.Machine
end

section
/-! PROOFS. The front-end lanes: messages, waits, coupling and gate outcomes (chapter 4), and the encoder that is not
the source (chapter 1). -/
namespace Sys2Proof.Machine

/-- An event outside cold reset is executed as its own effect. -/
theorem exec_free {i : Instr} {s t : State} {f : State → State} (hexec : exec i s = .next (s.unlessHeld f))
    (hheld : s.held = false) (ht : f s = t) : exec i s = .next t :=
  hexec.trans (congrArg Host.Outcome.next ((unlessHeld_free hheld f).trans ht))

/-! ## Messages (R55) -/

/-- Settles O14: each event by the lane state and the head of the queue. -/
theorem laneMessagesAreSent : Obligations.LaneMessagesAreSent := by
  intro r s hheld
  refine ⟨fun number probe final windows rest hstate hqueue => exec_free rfl hheld ?_,
    fun tag mask rest hstate hqueue => exec_free rfl hheld ?_, exec_free rfl hheld rfl⟩
  · unfold setupMessageSent
    simp only [hstate, hqueue]
  · unfold fireMessageSent
    simp only [hstate, hqueue]

/-! ## The lane timer (R57, R59) -/

/-- A lane that enters SETUP, and goes on to OK without an enabled probe (R57). -/
theorem enterSetup_lane (s : State) (r : Rail) (cause : LaneCause) :
    (s.enterSetup r cause).lanes.get r = { s.setupLane r with
      state := if ∀ p : Fin 16, (s.probes[probeNo r p]).enabled = false then .ok else .setup } := by
  unfold State.enterSetup
  dsimp only
  by_cases hnone : ∀ p : Fin 16, (s.probes[probeNo r p]).enabled = false
  · rw [if_pos ((enabledProbes_isEmpty s r).2 hnone), if_pos hnone]
    simp [State.changeLane]
  · rw [if_neg (mt (enabledProbes_isEmpty s r).1 hnone), if_neg hnone]
    simp [State.changeLane, State.setupLane]

theorem enterSetup_others (s : State) (r : Rail) (cause : LaneCause) {q : Rail} (hq : q ≠ r) :
    (s.enterSetup r cause).lanes.get q = s.lanes.get q := by
  have hchange : ∀ (u : State) (l : Lane) (c : LaneCause), (u.changeLane r l c).lanes.get q = u.lanes.get q := by
    intro u l c
    simp [State.changeLane, State.setLane, PerRail.get_set_ne _ hq]
  unfold State.enterSetup
  dsimp only
  split
  · rw [hchange, hchange]
  · rw [hchange]

theorem enterSetup_link (s : State) (r : Rail) (cause : LaneCause) : (s.enterSetup r cause).link =
    s.link.told s.odo.cp (.laneState r .setup (s.lanes.get r).state ((s.lanes.get r).setupNumber + 1) cause
      :: if ∀ p : Fin 16, (s.probes[probeNo r p]).enabled = false
        then [.laneState r .ok .setup ((s.lanes.get r).setupNumber + 1) .noProbes] else []) := by
  unfold State.enterSetup
  dsimp only
  by_cases hnone : ∀ p : Fin 16, (s.probes[probeNo r p]).enabled = false
  · rw [if_pos ((enabledProbes_isEmpty s r).2 hnone), if_pos hnone, changeLane_link, changeLane_link]
    simp [State.changeLane, State.setupLane, told_cons]
  · rw [if_neg (mt (enabledProbes_isEmpty s r).1 hnone), if_neg hnone, changeLane_link]
    simp [State.setupLane]

theorem setupTimeout_setup {r : Rail} {s : State} (h : (s.lanes.get r).state = .setup) : setupTimeout r s =
    s.changeLane r { (s.lanes.get r).withdrawSetups with state := .fault, timer := 0 } .setupTimeout := by
  unfold setupTimeout
  dsimp only
  rw [h]

theorem setupTimeout_else {r : Rail} {s : State} (h : (s.lanes.get r).state ≠ .setup) : setupTimeout r s = s := by
  unfold setupTimeout
  dsimp only
  split
  case h_1 hs => exact absurd hs h
  case h_2 => rfl

theorem retry_fault {r : Rail} {s : State} (h : (s.lanes.get r).state = .fault) : retry r s = s.enterSetup r .retry := by
  unfold retry
  rw [h]

theorem retry_else {r : Rail} {s : State} (h : (s.lanes.get r).state ≠ .fault) : retry r s = s := by
  unfold retry
  split
  case h_1 hs => exact absurd hs h
  case h_2 => rfl

/-- Settles O16: the wait in SETUP by its change of state, the wait in FAULT by the entry to SETUP. -/
theorem laneWaitEnds : Obligations.LaneWaitEnds := by
  intro r s hheld
  refine ⟨answers_free rfl hheld ?_, answers_free rfl hheld ?_⟩
  · split
    case isFalse hother => exact setupTimeout_else hother
    case isTrue hsetup =>
      have hchanges := setupTimeout_changes r s
      rw [setupTimeout_setup hsetup] at hchanges ⊢
      refine ⟨?_, ?_, ?_, ?_, ?_, fun q hq => ?_, hchanges⟩
      · simp [State.changeLane]
      · simp [State.changeLane]
      · simp [State.changeLane, Lane.withdrawSetups]
      · simp [State.changeLane, Lane.withdrawSetups]
      · rw [changeLane_link, hsetup]
        rfl
      · simp [State.changeLane, State.setLane, PerRail.get_set_ne _ hq]
  · split
    case isFalse hother => exact retry_else hother
    case isTrue hfault =>
      have hchanges := retry_changes r s
      have hmessages := setupMessages_transfer s r ((s.lanes.get r).setupNumber + 1)
      rw [retry_fault hfault] at hchanges ⊢
      rw [enterSetup_lane, enterSetup_link, hfault]
      refine ⟨rfl, rfl, rfl, rfl, rfl, rfl, fun p => ?_, ?_, rfl, fun q hq => enterSetup_others s r _ hq, hchanges⟩
      · simp [State.setupLane, Coupling.fresh]
      · rw [← hmessages]
        rfl

/-! ## Coupling (R66–R68) -/

theorem mem_fourGates (g : Fin 4) : g ∈ fourGates := by
  revert g
  decide

theorem couplingGates_isEmpty (p : Probe) :
    p.couplingGates.isEmpty = true ↔ ∀ g : Fin 4, (p.gates[g]).role ≠ .coupling := by
  simp only [Probe.couplingGates, List.isEmpty_iff, List.filter_eq_nil_iff, decide_eq_true_eq]
  exact ⟨fun h g => h g (mem_fourGates g), fun h g _ => h g⟩

theorem observes_iff (p : Probe) (xs : Vector GateResult 4) : p.observes xs = true ↔
    ∀ g : Fin 4, (p.gates[g]).role = .coupling →
      (xs[g]).amplitude.toNat ≠ 0 ∧ (p.gates[g]).threshold ≤ (xs[g]).amplitude.toNat := by
  simp only [Probe.observes, Probe.couplingGates, List.all_eq_true, List.mem_filter, gatePresent, Bool.and_eq_true,
    decide_eq_true_eq]
  exact ⟨fun h g hg => h g ⟨mem_fourGates g, hg⟩, fun h g hg => h g hg.2⟩

/-- A present observation gains the state COUPLED at its count (R66, R67). -/
theorem count_present (c : Coupling) {lose gain : Nat} (hlose : 1 ≤ lose) :
    (c.count true).become ((c.count true).judged lose gain) =
      if gain ≤ min (c.present + 1) 255 ∧ c.state ≠ .coupled then { state := .coupled, absent := 0, present := 0 }
      else { c with present := min (c.present + 1) 255, absent := 0 } := by
  have hnever : ¬ lose ≤ (c.count true).absent := by simp [Coupling.count]; omega
  unfold Coupling.judged
  rw [if_neg hnever]
  by_cases hgain : gain ≤ min (c.present + 1) 255
  · rw [if_pos (by simpa [Coupling.count] using hgain)]
    by_cases hstate : c.state = .coupled
    · simp [Coupling.become, Coupling.count, hstate]
    · rw [if_pos ⟨hgain, hstate⟩]
      simp [Coupling.become, Coupling.count, Ne.symm hstate]
  · rw [if_neg (by simpa [Coupling.count] using hgain), if_neg fun h => hgain h.1]
    simp [Coupling.become, Coupling.count]

/-- An absent observation loses the coupling at its count (R66, R67). -/
theorem count_absent (c : Coupling) {lose gain : Nat} (hgain : 1 ≤ gain) :
    (c.count false).become ((c.count false).judged lose gain) =
      if lose ≤ min (c.absent + 1) 255 ∧ c.state ≠ .lost then { state := .lost, absent := 0, present := 0 }
      else { c with absent := min (c.absent + 1) 255, present := 0 } := by
  have hnever : ¬ gain ≤ (c.count false).present := by simp [Coupling.count]; omega
  unfold Coupling.judged
  by_cases hlose : lose ≤ min (c.absent + 1) 255
  · rw [if_pos (by simpa [Coupling.count] using hlose)]
    by_cases hstate : c.state = .lost
    · simp [Coupling.become, Coupling.count, hstate]
    · rw [if_pos ⟨hlose, hstate⟩]
      simp [Coupling.become, Coupling.count, Ne.symm hstate]
  · rw [if_neg (by simpa [Coupling.count] using hlose), if_neg hnever, if_neg fun h => hlose h.1]
    simp [Coupling.become, Coupling.count]

/-- Settles O18: without a COUPLING gate, and with a present and an absent observation. -/
theorem couplingFollowsReports : Obligations.CouplingFollowsReports := by
  intro c p xs lose gain hlose hgain
  unfold Coupling.after
  split
  case isTrue hnone =>
    rw [if_pos ((couplingGates_isEmpty p).2 hnone)]
    split
    case isTrue hunknown => simp [Coupling.become, hunknown]
    case isFalse => rfl
  case isFalse hsome =>
    rw [if_neg (mt (couplingGates_isEmpty p).1 hsome)]
    dsimp only
    split
    case isTrue hpresent =>
      rw [(observes_iff p xs).2 hpresent]
      exact count_present c hlose
    case isFalse habsent =>
      rw [Bool.eq_false_iff.2 (mt (observes_iff p xs).1 habsent)]
      exact count_absent c hgain

/-! ## Gate outcomes (R64) -/

theorem toNat_ne_zero_iff (x : Byte) : x.toNat ≠ 0 ↔ x ≠ 0 := by
  rw [Ne, Ne, ← BitVec.toNat_inj]
  rfl

/-- Settles O19: one case for each role. -/
theorem gateOutcomesFollowRole : Obligations.GateOutcomesFollowRole := by
  intro g x
  unfold gateHit gatePresent
  simp only [toNat_ne_zero_iff]
  cases hrole : g.role with
  | off => simp
  | coupling => simp
  | flaw => simp
  | drop => simp

/-! ## The other encoder (R2, R3) -/

theorem turn_odo (s : State) (e : Encoder) (q : Quadrature) : (s.turn e q).odo = s.odo.setQuadrature e q := rfl

/-- Settles O5: a tick of the other encoder stops at its delta; an illegal transition turns both channels. -/
theorem otherEncoderEvents : Obligations.OtherEncoderEvents := by
  refine ⟨fun e d s hheld hother => answers_free rfl hheld ?_, fun e s hheld => answers_free rfl hheld ?_⟩
  · have htick : encoderTick e d s = (s.turn e ((s.odo.quadrature e).ticked d)).setOdo
        ((s.turn e ((s.odo.quadrature e).ticked d)).odo.addDelta e d) := if_neg hother
    rw [htick]
    refine ⟨rfl, changesOnly_trans (turn_changes s e _) (changesOnly_mono (setOdo_changes _ _) (by simp))⟩
  · have hchanges := illegalTransition_changes e s
    have hcounts : s.countsErrors e = true ↔ e = .primary ∨ s.params.secondaryMode ≠ .off := by
      cases e <;> simp [State.countsErrors]
    have hodo : (illegalTransition e s).odo =
        if e = .primary ∨ s.params.secondaryMode ≠ .off
          then (s.odo.setQuadrature e (s.odo.quadrature e).bothTurned).addError e
          else s.odo.setQuadrature e (s.odo.quadrature e).bothTurned := by
      unfold illegalTransition
      dsimp only
      split
      case isTrue h => rw [if_pos (hcounts.1 h)]; rfl
      case isFalse h => rw [if_neg (mt hcounts.2 h)]; rfl
    rw [hodo]
    split
    · cases e <;> exact ⟨rfl, rfl, rfl, rfl, rfl, ⟨rfl, rfl, rfl⟩, hchanges⟩
    · cases e <;> exact ⟨rfl, rfl, rfl, rfl, rfl, ⟨rfl, rfl, rfl⟩, hchanges⟩

end Sys2Proof.Machine
end

section
/-! PROOFS. What a report hands to the window (R95–R98), and the matching of a report (R50, R62). -/
namespace Sys2Proof.Machine

/-! ## The cases of a hit (R95) -/

theorem hitCase_behind {s : State} {r : Rail} {g : Fin 8} {cell x : Int} (h : cell < (s.windows.get r).k) :
    s.hitCase r g cell x = if s.odo.retrace then .retrace else .late := if_pos h

theorem hitCase_early {s : State} {r : Rail} {g : Fin 8} {cell x : Int} (h : (s.windows.get r).k + 1023 < cell) :
    s.hitCase r g cell x = .early := by
  unfold State.hitCase
  rw [if_neg (by omega), if_pos h]

theorem hitCase_open {s : State} {r : Rail} {g : Fin 8} {cell x : Int} (hlow : (s.windows.get r).k ≤ cell)
    (hhigh : cell ≤ (s.windows.get r).k + 1023) :
    s.hitCase r g cell x = if s.mutesHit r g x then .muted else .entered := by
  unfold State.hitCase
  rw [if_neg (by omega), if_neg (by omega)]

theorem enterHit_retrace {s : State} {h : PlacedHit} (hcase : s.hitCase h.rail h.group h.cell h.x = .retrace) :
    s.enterHit h = s := by
  unfold State.enterHit
  rw [hcase]

theorem enterHit_muted {s : State} {h : PlacedHit} (hcase : s.hitCase h.rail h.group h.cell h.x = .muted) :
    s.enterHit h = s := by
  unfold State.enterHit
  rw [hcase]

theorem enterHit_late {s : State} {h : PlacedHit} (hcase : s.hitCase h.rail h.group h.cell h.x = .late) :
    s.enterHit h = s.setWindow h.rail { s.windows.get h.rail with
      late := satAdd16 (s.windows.get h.rail).late 1 } := by
  unfold State.enterHit
  rw [hcase]

theorem enterHit_early {s : State} {h : PlacedHit} (hcase : s.hitCase h.rail h.group h.cell h.x = .early) :
    s.enterHit h = s.setWindow h.rail { s.windows.get h.rail with
      early := satAdd16 (s.windows.get h.rail).early 1 } := by
  unfold State.enterHit
  rw [hcase]

theorem enterHit_of_entered {s : State} {h : PlacedHit} (hcase : s.hitCase h.rail h.group h.cell h.x = .entered) :
    s.enterHit h = (s.setWindow h.rail ((s.windows.get h.rail).enter h)).emit (h.record s.run.runNumber) := by
  unfold State.enterHit
  rw [hcase]

/-! ## An entered hit and a coverage reference (R96–R98) -/

theorem put_fields (w : Window) (c : Int) (g : CellGroups) : { w.put c g with cells := w.cells } = w := rfl

/-- One group replaced in a cell, read in the cell and its groups. -/
theorem put_set_groups {w : Window} (hwf : w.wf = true) (c : Int) (i : Fin 8) (x : GroupRecord) :
    (((w.put c ((w.groups c).set i x)).groups c)[i] = x)
      ∧ (∀ g : Fin 8, g ≠ i → ((w.put c ((w.groups c).set i x)).groups c)[g] = (w.groups c)[g])
      ∧ ∀ d : Int, d ≠ c → (w.put c ((w.groups c).set i x)).groups d = w.groups d := by
  refine ⟨?_, fun g hg => ?_, fun d hd => w.groups_put_ne hd _⟩
  · rw [Window.groups_put_same hwf]
    simp
  · have hne : i.val ≠ g.val := fun e => hg (Fin.ext e.symm)
    rw [Window.groups_put_same hwf]
    simp [Vector.getElem_set_ne _ _ hne]

/-- A hit that enters leaves the other window, and of its own all but one group record (R96, R97). -/
theorem enterHit_entered {s : State} {h : PlacedHit} (hcase : s.hitCase h.rail h.group h.cell h.x = .entered) :
    (∀ r : Rail, r ≠ h.rail → (s.enterHit h).windows.get r = s.windows.get r)
      ∧ (s.enterHit h).windows.get h.rail = (s.windows.get h.rail).enter h
      ∧ (s.enterHit h).link = (s.emit (h.record s.run.runNumber)).link
      ∧ changesOnly [.windows, .link] s (s.enterHit h) := by
  have hchanges := enterHit_changes s h
  rw [enterHit_of_entered hcase] at hchanges ⊢
  refine ⟨fun r hr => ?_, ?_, rfl, hchanges⟩
  · simp [State.setWindow, PerRail.get_set_ne _ hr]
  · simp

theorem isOpen_iff (w : Window) (c : Int) : w.isOpen c = true ↔ w.k ≤ c ∧ c ≤ w.k + 1023 := by
  simp [Window.isOpen]

theorem enterCoverage_open {s : State} {r : Rail} {g : Fin 8} {c : Int} (h : (s.windows.get r).isOpen c = true) :
    s.enterCoverage r g c = s.setWindow r ((s.windows.get r).cover c g) := if_pos h

theorem enterCoverage_closed {s : State} {r : Rail} {g : Fin 8} {c : Int} (h : ¬ (s.windows.get r).isOpen c = true) :
    s.enterCoverage r g c = s := if_neg h

theorem inTickRange_iff (x : Int) : inTickRange x = true ↔ tickMin ≤ x ∧ x ≤ tickMax := by
  simp [inTickRange]

theorem handCoverage_eq (s : State) (r : Rail) (p : Fin 16) (fp : Int) : s.handCoverage r p fp =
    if tickMin ≤ fp + (s.probes[probeNo r p]).offset + (s.probes[probeNo r p]).shift
        ∧ fp + (s.probes[probeNo r p]).offset + (s.probes[probeNo r p]).shift ≤ tickMax
      then s.enterCoverage r (s.probes[probeNo r p]).group
        ((fp + (s.probes[probeNo r p]).offset + (s.probes[probeNo r p]).shift) / (s.params.cellTicks : Int))
      else s := by
  unfold State.handCoverage
  dsimp only
  exact if_congr (inTickRange_iff _) rfl rfl

/-- Settles O21: each case of R95 by `hitCase`, an entered item by `put_set_groups`. -/
theorem itemsEnterTheWindow : Obligations.ItemsEnterTheWindow := by
  intro h s
  dsimp only
  rw [← mutesHit_iff]
  refine ⟨fun hbehind hretrace => ?_, fun hbehind hretrace => ?_, fun hearly => ?_, fun hlow hhigh hmuted => ?_,
    fun hlow hhigh hfree => ?_, ?_, fun hlow hhigh => if_pos ((inTickRange_iff _).2 ⟨hlow, hhigh⟩), fun r p xs fp => ?_⟩
  · exact enterHit_retrace ((hitCase_behind hbehind).trans (if_pos hretrace))
  · exact enterHit_late ((hitCase_behind hbehind).trans (if_neg (by simp [hretrace])))
  · exact enterHit_early (hitCase_early hearly)
  · exact enterHit_muted ((hitCase_open hlow hhigh).trans (if_pos hmuted))
  · obtain ⟨hother, hown, hlink, hchanges⟩ := enterHit_entered ((hitCase_open hlow hhigh).trans (if_neg hfree))
    rw [hown]
    refine ⟨hother, rfl, fun hwf c hc => ?_, fun hwf g hg => ?_, fun hwf => ?_, hlink, hchanges⟩
    · exact (put_set_groups hwf h.cell h.group _).2.2 c hc
    · exact (put_set_groups hwf h.cell h.group _).2.1 g hg
    · refine (put_set_groups hwf h.cell h.group _).1.trans ?_
      unfold PlacedHit.apply
      cases h.kind <;> rfl
  · split
    case isTrue hopen =>
      intro hwf
      rw [enterCoverage_open ((isOpen_iff _ _).2 hopen)]
      have hown : (s.setWindow h.rail ((s.windows.get h.rail).cover h.cell h.group)).windows.get h.rail =
          (s.windows.get h.rail).cover h.cell h.group := by simp
      obtain ⟨hgroup, hgroups, hcells⟩ := put_set_groups hwf h.cell h.group
        { ((s.windows.get h.rail).groups h.cell)[h.group] with covered := true }
      rw [hown]
      refine ⟨hgroup, hgroups, hcells, rfl, fun r hr => ?_, setWindow_changes _ _ _⟩
      simp [State.setWindow, PerRail.get_set_ne _ hr]
    case isFalse hclosed => exact enterCoverage_closed (mt (isOpen_iff _ _).1 hclosed)
  · unfold State.handAll
    rw [handCoverage_eq]
    rfl

end Sys2Proof.Machine
end

section
/-! PROOFS. The matching of a report and what a taken one does (R30, R50, R62–R65). -/
namespace Sys2Proof.Machine

/-! ## What handing on reads (R77, R95) -/

/-- Two states are the same to what hands an item on: windows, odometry, zones, run, probes and parameters, and the link
where it is asked. -/
def handsAlike (withLink : Prop) (u v : State) : Prop :=
  u.windows = v.windows ∧ u.odo = v.odo ∧ u.zones = v.zones ∧ u.run = v.run ∧ u.probes = v.probes
    ∧ u.params = v.params ∧ (withLink → u.link = v.link)

namespace HandsAlike

variable {withLink : Prop} {u v : State}

/-- Both states change the same window, or both leave it. -/
theorem setWindow (h : handsAlike withLink u v) (r : Rail) (w : Window) :
    handsAlike withLink (u.setWindow r w) (v.setWindow r w) := by
  obtain ⟨hw, ho, hz, hr, hp, hq, hl⟩ := h
  exact ⟨by simp [State.setWindow, hw], ho, hz, hr, hp, hq, hl⟩

theorem emit (h : handsAlike withLink u v) (x : Record) : handsAlike withLink (u.emit x) (v.emit x) := by
  obtain ⟨hw, ho, hz, hr, hp, hq, hl⟩ := h
  refine ⟨hw, ho, hz, hr, hp, hq, fun hwith => ?_⟩
  show u.link.offer u.odo.cp x = v.link.offer v.odo.cp x
  rw [hl hwith, ho]

theorem hitCase (h : handsAlike withLink u v) (r : Rail) (g : Fin 8) (cell x : Int) :
    u.hitCase r g cell x = v.hitCase r g cell x := by
  obtain ⟨hw, ho, hz, hr, -⟩ := h
  unfold State.hitCase State.mutesHit State.mutesHits
  rw [hw, ho, hz, hr]

theorem enterHit (h : handsAlike withLink u v) (x : PlacedHit) : handsAlike withLink (u.enterHit x) (v.enterHit x) := by
  have hsame := hitCase h x.rail x.group x.cell x.x
  have hwindows : u.windows = v.windows := h.1
  have hrun : u.run = v.run := h.2.2.2.1
  cases hcase : v.hitCase x.rail x.group x.cell x.x with
  | retrace => rwa [enterHit_retrace hcase, enterHit_retrace (hsame.trans hcase)]
  | muted => rwa [enterHit_muted hcase, enterHit_muted (hsame.trans hcase)]
  | late =>
    rw [enterHit_late hcase, enterHit_late (hsame.trans hcase), hwindows]
    exact setWindow h _ _
  | early =>
    rw [enterHit_early hcase, enterHit_early (hsame.trans hcase), hwindows]
    exact setWindow h _ _
  | entered =>
    rw [enterHit_of_entered hcase, enterHit_of_entered (hsame.trans hcase), hwindows, hrun]
    exact emit (setWindow h _ _) _

theorem handOn (h : handsAlike withLink u v) (x : PlacedHit) : handsAlike withLink (u.handOn x) (v.handOn x) := by
  have hwindows : u.windows = v.windows := h.1
  unfold State.handOn State.misplace
  split
  · exact enterHit h x
  · dsimp only
    rw [hwindows]
    exact setWindow h _ _

theorem handGate (h : handsAlike withLink u v) {s t : State} (hprobes : s.probes = t.probes) (hparams : s.params = t.params)
    (r : Rail) (p : Fin 16) (xs : Vector GateResult 4) (fp : Int) (g : Fin 4) :
    handsAlike withLink (u.handGate s r p xs fp g) (v.handGate t r p xs fp g) := by
  unfold State.handGate State.placeFlaw State.placeDrop
  rw [hprobes, hparams]
  split
  · exact h
  · exact handOn h _
  · exact handOn h _

theorem handCoverage (h : handsAlike withLink u v) (r : Rail) (p : Fin 16) (fp : Int) :
    handsAlike withLink (u.handCoverage r p fp) (v.handCoverage r p fp) := by
  obtain ⟨hw, -, -, -, hp, hq, -⟩ := id h
  unfold State.handCoverage State.enterCoverage
  dsimp only
  rw [hw, hp, hq]
  split
  · split
    · exact setWindow h _ _
    · exact h
  · exact h

theorem handAll (h : handsAlike withLink u v) (r : Rail) (p : Fin 16) (xs : Vector GateResult 4) (fp : Int) :
    handsAlike withLink (u.handAll r p xs fp) (v.handAll r p xs fp) := by
  obtain ⟨-, -, -, -, hp, hq, -⟩ := id h
  have hgates : ∀ (gs : List (Fin 4)) (a b : State), handsAlike withLink a b →
      handsAlike withLink (gs.foldl (fun a g => a.handGate u r p xs fp g) a)
        (gs.foldl (fun b g => b.handGate v r p xs fp g) b) := by
    intro gs
    induction gs with
    | nil => exact fun a b hab => hab
    | cons g gs ih => exact fun a b hab => ih _ _ (handGate hab hp hq r p xs fp g)
  exact hgates fourGates _ _ (handCoverage h r p fp)

end HandsAlike

/-- What a report hands on reaches the window of its rail alone (R86). -/
theorem handAll_other (s : State) {r q : Rail} (hq : q ≠ r) (p : Fin 16) (xs : Vector GateResult 4) (fp : Int) :
    (s.handAll r p xs fp).windows.get q = s.windows.get q := by
  have hset : ∀ (u : State) (w : Window), (u.setWindow r w).windows.get q = u.windows.get q := by
    intro u w
    simp [State.setWindow, PerRail.get_set_ne _ hq]
  have hhand : ∀ (u : State) (h : PlacedHit), h.rail = r → (u.handOn h).windows.get q = u.windows.get q := by
    intro u h hr
    subst hr
    unfold State.handOn State.misplace State.enterHit
    dsimp only
    split
    · split
      case h_1 | h_2 => rfl
      all_goals exact hset _ _
    · exact hset _ _
  have hgate : ∀ (u : State) (g : Fin 4), (u.handGate s r p xs fp g).windows.get q = u.windows.get q := by
    intro u g
    unfold State.handGate
    split
    · rfl
    · exact hhand _ _ rfl
    · exact hhand _ _ rfl
  have hcoverage : (s.handCoverage r p fp).windows.get q = s.windows.get q := by
    unfold State.handCoverage State.enterCoverage
    dsimp only
    split
    · split
      · exact hset _ _
      · rfl
    · rfl
  exact foldl_keeps (p := fun u => u.windows.get q = s.windows.get q) (f := fun u g => u.handGate s r p xs fp g)
    (fun u g hu => (hgate u g).trans hu) fourGates _ hcoverage

/-! ## Matching (R62) -/

theorem matchReport_stale {x : FiringRecord} {r : Rail} {tag probe : Byte} (h : x.outstanding = false ∨ x.tag ≠ tag) :
    matchReport x r tag probe = .stale := if_pos h

theorem matchReport_unexpected {x : FiringRecord} {r : Rail} {tag probe : Byte}
    (hmatch : ¬ (x.outstanding = false ∨ x.tag ≠ tag))
    (h : x.lane ≠ r ∨ 16 ≤ probe.toNat ∨ x.expected.getLsbD probe.toNat = false) :
    matchReport x r tag probe = .unexpected := by
  unfold matchReport
  rw [if_neg hmatch]
  by_cases hlane : x.lane ≠ r
  · rw [if_pos hlane]
  · rw [if_neg hlane, if_pos (h.resolve_left hlane)]

theorem matchReport_expected {x : FiringRecord} {r : Rail} {tag probe : Byte}
    (hmatch : ¬ (x.outstanding = false ∨ x.tag ≠ tag))
    (h : ¬ (x.lane ≠ r ∨ 16 ≤ probe.toNat ∨ x.expected.getLsbD probe.toNat = false)) :
    matchReport x r tag probe = if x.received.getLsbD probe.toNat then .duplicate else .taken := by
  obtain ⟨hlane, hprobe⟩ := not_or.1 h
  unfold matchReport
  rw [if_neg hmatch, if_neg hlane, if_neg hprobe]

theorem report_stale {r : Rail} {tag probe : Byte} {xs : Vector GateResult 4} {s : State}
    (h : matchReport s.seq.ring[ringSlot tag] r tag probe = .stale) : report r tag probe xs s =
      s.setLane r { s.lanes.get r with stale := satAdd16 (s.lanes.get r).stale 1 } := by
  unfold report
  rw [h]

theorem report_unexpected {r : Rail} {tag probe : Byte} {xs : Vector GateResult 4} {s : State}
    (h : matchReport s.seq.ring[ringSlot tag] r tag probe = .unexpected) : report r tag probe xs s =
      s.setLane r { s.lanes.get r with unexpected := satAdd16 (s.lanes.get r).unexpected 1 } := by
  unfold report
  rw [h]

theorem report_duplicate {r : Rail} {tag probe : Byte} {xs : Vector GateResult 4} {s : State}
    (h : matchReport s.seq.ring[ringSlot tag] r tag probe = .duplicate) : report r tag probe xs s =
      s.setLane r { s.lanes.get r with duplicate := satAdd16 (s.lanes.get r).duplicate 1 } := by
  unfold report
  rw [h]

theorem report_taken {r : Rail} {tag probe : Byte} {xs : Vector GateResult 4} {s : State}
    (h : matchReport s.seq.ring[ringSlot tag] r tag probe = .taken) :
    report r tag probe xs s = s.takeReport r tag (localOf probe) xs := by
  unfold report
  rw [h]

/-! ## A taken report (R50, R63) -/

/-- The state of a taken report once its coupling is observed (R63 step 1). -/
def State.observed (s : State) (r : Rail) (i : Fin 64) (p : Fin 16) (xs : Vector GateResult 4) : State :=
  (s.receive i p).observeCoupling r p xs (s.seq.ring[i]).kind

/-- The coupling record of a probe after a report (R66–R68). -/
def State.coupledBy (s : State) (r : Rail) (p : Fin 16) (xs : Vector GateResult 4) : Coupling :=
  ((s.lanes.get r).coupling[p]).after s.probes[probeNo r p] xs s.params.coupleLose s.params.coupleGain

section
variable (s : State) (r : Rail) (i : Fin 64) (p : Fin 16) (xs : Vector GateResult 4)

/-- The firing record of a taken report, the probe received (R62). -/
def State.receivedBy (s : State) (i : Fin 64) (p : Fin 16) : FiringRecord :=
  let x := s.seq.ring[i]
  { x with received := x.received ||| bit16 p.val }

theorem observed_seq : (s.observed r i p xs).seq = { s.seq with ring := s.seq.ring.set i (s.receivedBy i p) } :=
  changesOnly_same (observeCoupling_changes (s.receive i p) r p xs _) .seq (by simp)

theorem observed_lanes : (s.observed r i p xs).lanes = s.lanes.set r { s.lanes.get r with
    coupling := (s.lanes.get r).coupling.set p (s.coupledBy r p xs) } :=
  changesOnly_same (eventIf_changes (State.setLane _ r _) _ _) .lanes (by simp)

theorem observed_link : (s.observed r i p xs).link = s.link.told s.odo.cp
    (if (s.coupledBy r p xs).state = ((s.lanes.get r).coupling[p]).state then []
      else [.coupling (probeNo r p).val (s.coupledBy r p xs).state ((s.lanes.get r).coupling[p]).state
        (s.seq.ring[i]).kind]) := by
  refine (eventIf_link (State.setLane _ r _) _ _).trans ?_
  show s.link.told s.odo.cp (if ((s.coupledBy r p xs).state != ((s.lanes.get r).coupling[p]).state) = true then _ else []) = _
  by_cases hsame : (s.coupledBy r p xs).state = ((s.lanes.get r).coupling[p]).state
  · rw [if_pos hsame, if_neg (by simp [hsame])]
  · rw [if_neg hsame, if_pos (bne_iff_ne.2 hsame)]
    rfl

theorem observed_changes : changesOnly [.seq, .lanes, .link] s (s.observed r i p xs) :=
  changesOnly_trans (changesOnly_mono (receive_changes s i p) (by simp))
    (changesOnly_mono (observeCoupling_changes _ r p xs _) (by simp))

theorem observed_admits (kind : CycleKind) : (s.observed r i p xs).admits r p kind = true ↔
    kind = .distance ∧ (s.coupledBy r p xs).state = .coupled ∧ (s.lanes.get r).state = .ok := by
  unfold State.admits
  rw [observed_lanes]
  simp [and_assoc]

end

theorem handIfAdmitted_changes (s : State) (r : Rail) (p : Fin 16) (xs : Vector GateResult 4) (x : FiringRecord) :
    changesOnly [.windows, .link] s (s.handIfAdmitted r p xs x) := by
  unfold State.handIfAdmitted
  split
  · exact handAll_changes s r p xs _
  · exact changesOnly_refl _ s

/-- A record is released where every expected probe has reported (R50). -/
theorem completeRecord_complete {s : State} {i : Fin 64} (h : (s.seq.ring[i]).received = (s.seq.ring[i]).expected) :
    s.completeRecord i = ((s.freeSlot i).orderAnswered (s.seq.ring[i]).lane).judgeRelease (s.seq.ring[i]).kind := if_pos h

theorem completeRecord_waits {s : State} {i : Fin 64} (h : (s.seq.ring[i]).received ≠ (s.seq.ring[i]).expected) :
    s.completeRecord i = s := if_neg h

/-- What the release of a record, or its waiting, leaves (R50). -/
theorem completeRecord_spec (s : State) (i : Fin 64) {x : FiringRecord} (hx : s.seq.ring[i] = x)
    (hout : x.outstanding = true) :
    ((s.completeRecord i).seq.ring[i]).received = x.received
      ∧ ((s.completeRecord i).seq.ring[i]).outstanding = decide (x.received ≠ x.expected)
      ∧ (∀ j : Fin 64, j ≠ i → (s.completeRecord i).seq.ring[j] = s.seq.ring[j])
      ∧ { (s.completeRecord i).seq with ring := s.seq.ring } = s.seq
      ∧ (s.completeRecord i).lanes = (if x.received = x.expected
          then s.lanes.set x.lane { s.lanes.get x.lane with incomplete := 0 } else s.lanes)
      ∧ (s.completeRecord i).pending =
          (if x.received = x.expected ∧ s.run.state = .draining ∧ x.kind = .distance
              ∧ ∀ j : Fin 64, j ≠ i → (s.seq.ring[j]).outstanding = true → (s.seq.ring[j]).kind ≠ .distance
            then .drain :: s.pending else s.pending) := by
  subst hx
  by_cases hdone : (s.seq.ring[i]).received = (s.seq.ring[i]).expected
  · have hreleased := judgeRelease_changes ((s.freeSlot i).orderAnswered (s.seq.ring[i]).lane) (s.seq.ring[i]).kind
    have hfreed : ((s.freeSlot i).orderAnswered (s.seq.ring[i]).lane).seq.ring[i] =
        { s.seq.ring[i] with outstanding := false } := freeSlot_same s i
    rw [completeRecord_complete hdone, changesOnly_same hreleased .seq (by simp),
      changesOnly_same hreleased .lanes (by simp), if_pos hdone]
    refine ⟨by rw [hfreed], ?_, fun j hj => freeSlot_ne s i hj, rfl, rfl, ?_⟩
    · rw [hfreed]
      exact (decide_eq_false (not_not.2 hdone)).symm
    · refine (judgeRelease_pending s ((s.freeSlot i).orderAnswered (s.seq.ring[i]).lane) i _ (by rw [hfreed]) (fun j hj => freeSlot_ne s i hj) (by rfl) (by rfl)).trans ?_
      simp only [hdone, true_and]
  · rw [completeRecord_waits hdone, if_neg hdone, if_neg fun h => hdone h.1]
    exact ⟨rfl, hout.trans (decide_eq_true hdone).symm, fun _ _ => rfl, rfl, rfl, rfl⟩

/-- A state before the release of a taken report: its coupling observed and its items handed on (R63). -/
def State.answeredBy (s : State) (r : Rail) (i : Fin 64) (p : Fin 16) (xs : Vector GateResult 4) : State :=
  (s.observed r i p xs).handIfAdmitted r p xs s.seq.ring[i]

section
variable (s : State) (r : Rail) (i : Fin 64) (p : Fin 16) (xs : Vector GateResult 4)

theorem answeredBy_kept : changesOnly [.windows, .link] (s.observed r i p xs) (s.answeredBy r i p xs) :=
  handIfAdmitted_changes _ r p xs _

theorem answeredBy_changes : changesOnly [.seq, .lanes, .windows, .link] s (s.answeredBy r i p xs) :=
  changesOnly_trans (changesOnly_mono (observed_changes s r i p xs) (by simp))
    (changesOnly_mono (answeredBy_kept s r i p xs) (by simp))

theorem answeredBy_ring_same : (s.answeredBy r i p xs).seq.ring[i] = s.receivedBy i p := by
  rw [changesOnly_same (answeredBy_kept s r i p xs) .seq (by simp), observed_seq]
  exact Vector.getElem_set_self _

theorem answeredBy_ring_ne {j : Fin 64} (h : j ≠ i) : (s.answeredBy r i p xs).seq.ring[j] = s.seq.ring[j] := by
  rw [changesOnly_same (answeredBy_kept s r i p xs) .seq (by simp), observed_seq]
  exact Vector.getElem_set_ne i.isLt j.isLt fun hij => h (Fin.ext hij.symm)

theorem answeredBy_seq : { (s.answeredBy r i p xs).seq with ring := s.seq.ring } = s.seq := by
  rw [changesOnly_same (answeredBy_kept s r i p xs) .seq (by simp), observed_seq]

theorem answeredBy_lanes : (s.answeredBy r i p xs).lanes = s.lanes.set r { s.lanes.get r with
    coupling := (s.lanes.get r).coupling.set p (s.coupledBy r p xs) } := by
  rw [changesOnly_same (answeredBy_kept s r i p xs) .lanes (by simp), observed_lanes]

/-- The state with its coupling observed is alike to what it hands on, and so is its link once the EVENT is told. -/
theorem observed_alike {withLink : Prop} {t : State} (htold : changesOnly [.link] s t)
    (hlink : withLink → t.link = (s.observed r i p xs).link) : handsAlike withLink (s.observed r i p xs) t :=
  have hkept : changesOnly [.seq, .lanes, .link] s (s.observed r i p xs) := observed_changes s r i p xs
  ⟨(changesOnly_same hkept .windows (by simp)).trans (changesOnly_same htold .windows (by simp)).symm,
    (changesOnly_same hkept .odo (by simp)).trans (changesOnly_same htold .odo (by simp)).symm,
    (changesOnly_same hkept .zones (by simp)).trans (changesOnly_same htold .zones (by simp)).symm,
    (changesOnly_same hkept .run (by simp)).trans (changesOnly_same htold .run (by simp)).symm,
    (changesOnly_same hkept .probes (by simp)).trans (changesOnly_same htold .probes (by simp)).symm,
    (changesOnly_same hkept .params (by simp)).trans (changesOnly_same htold .params (by simp)).symm,
    fun hwith => (hlink hwith).symm⟩

/-- A report is admitted of a DISTANCE record, a probe that is then COUPLED and a lane that is OK (R65). -/
theorem answeredBy_windows : (s.answeredBy r i p xs).windows =
    if (s.seq.ring[i]).kind = .distance ∧ (s.coupledBy r p xs).state = .coupled ∧ (s.lanes.get r).state = .ok
      then (s.handAll r p xs (s.seq.ring[i]).fp).windows else s.windows := by
  have hadmits := observed_admits s r i p xs (s.seq.ring[i]).kind
  unfold State.answeredBy State.handIfAdmitted
  split
  case isTrue hyes =>
    rw [if_pos (hadmits.1 hyes)]
    exact (HandsAlike.handAll (observed_alike (withLink := False) s r i p xs (changesOnly_refl _ s) False.elim) r p xs _).1
  case isFalse hno =>
    rw [if_neg fun h => hno (hadmits.2 h)]
    exact changesOnly_same (observed_changes s r i p xs) .windows (by simp)

theorem answeredBy_link : (s.answeredBy r i p xs).link =
    if (s.seq.ring[i]).kind = .distance ∧ (s.coupledBy r p xs).state = .coupled ∧ (s.lanes.get r).state = .ok
      then ((s.setLink (s.observed r i p xs).link).handAll r p xs (s.seq.ring[i]).fp).link
      else (s.observed r i p xs).link := by
  have hadmits := observed_admits s r i p xs (s.seq.ring[i]).kind
  unfold State.answeredBy State.handIfAdmitted
  split
  case isTrue hyes =>
    rw [if_pos (hadmits.1 hyes)]
    obtain ⟨-, -, -, -, -, -, hlink⟩ := HandsAlike.handAll (observed_alike (withLink := True)
      (t := s.setLink (s.observed r i p xs).link) s r i p xs (setLink_changes s _) fun _ => rfl) r p xs (s.seq.ring[i]).fp
    exact hlink trivial
  case isFalse hno =>
    rw [if_neg fun h => hno (hadmits.2 h)]

theorem answeredBy_other {q : Rail} (h : q ≠ r) : (s.answeredBy r i p xs).windows.get q = s.windows.get q := by
  rw [answeredBy_windows]
  split
  · exact handAll_other s h p xs _
  · rfl

end

/-- The lanes once a taken report is answered: its probe's coupling is observed and, where its record is complete, no
order of its lane is incomplete (R50, R63). -/
theorem answered_lanes (s : State) (i : Fin 64) (p : Fin 16) (xs : Vector GateResult 4)
    (hout : (s.seq.ring[i]).outstanding = true) (r : Rail) (hlane : (s.seq.ring[i]).lane = r) :
    (((s.answeredBy r i p xs).completeRecord i).lanes.get r).incomplete =
        (if (s.receivedBy i p).received = (s.seq.ring[i]).expected then 0 else (s.lanes.get r).incomplete)
      ∧ (((s.answeredBy r i p xs).completeRecord i).lanes.get r).state = (s.lanes.get r).state
      ∧ (((s.answeredBy r i p xs).completeRecord i).lanes.get r).coupling =
          (s.lanes.get r).coupling.set p (s.coupledBy r p xs)
      ∧ ∀ q : Rail, q ≠ r → ((s.answeredBy r i p xs).completeRecord i).lanes.get q = s.lanes.get q := by
  subst hlane
  obtain ⟨-, -, -, -, hlanes, -⟩ := completeRecord_spec _ i (answeredBy_ring_same s _ i p xs) hout
  have hsame : (s.receivedBy i p).lane = (s.seq.ring[i]).lane := rfl
  have hexpected : (s.receivedBy i p).expected = (s.seq.ring[i]).expected := rfl
  rw [hlanes, answeredBy_lanes, hsame, hexpected]
  split
  · refine ⟨?_, ?_, ?_, fun q hq => ?_⟩
    case refine_4 => rw [PerRail.get_set_ne _ hq, PerRail.get_set_ne _ hq]
    all_goals simp only [PerRail.get_set_same]
  · refine ⟨?_, ?_, ?_, fun q hq => PerRail.get_set_ne _ hq _⟩
    all_goals simp only [PerRail.get_set_same]

/-- Settles O17: the discards by `matchReport`, a taken report by its coupling, what it hands on and its release. -/
theorem reportIsMatched : Obligations.ReportIsMatched := by
  intro r tag probe xs s hheld
  dsimp only
  split
  case isTrue hstale => exact exec_free rfl hheld (report_stale (matchReport_stale hstale))
  case isFalse hmatch =>
    split
    case isTrue hunexpected =>
      exact exec_free rfl hheld (report_unexpected (matchReport_unexpected hmatch hunexpected))
    case isFalse hexpected =>
      have hjudged := matchReport_expected hmatch hexpected
      split
      case isTrue hduplicate => exact exec_free rfl hheld (report_duplicate (hjudged.trans (if_pos hduplicate)))
      case isFalse hnew =>
        have htaken : report r tag probe xs s = s.takeReport r tag (localOf probe) xs :=
          report_taken (hjudged.trans (if_neg hnew))
        have hprobe : (localOf probe).val = probe.toNat := Nat.mod_eq_of_lt (by omega)
        have hlane : (s.seq.ring[ringSlot tag]).lane = r := by
          by_contra h
          exact hexpected (.inl h)
        have hout : (s.seq.ring[ringSlot tag]).outstanding = true :=
          (Bool.eq_false_or_eq_true _).resolve_right fun h => hmatch (.inl h)
        have hreceived : (s.receivedBy (ringSlot tag) (localOf probe)).received =
            (s.seq.ring[ringSlot tag]).received ||| bit16 probe.toNat := by rw [← hprobe]; rfl
        obtain ⟨hmask, hstays, hothers, hseq, -, hpending⟩ := completeRecord_spec
          (s.answeredBy r (ringSlot tag) (localOf probe) xs) (ringSlot tag) (answeredBy_ring_same _ _ _ _ _) hout
        obtain ⟨hincomplete, hstate, hcoupling, hlanes⟩ := answered_lanes s (ringSlot tag) (localOf probe) xs hout r hlane
        have hcompleted := completeRecord_changes (s.answeredBy r (ringSlot tag) (localOf probe) xs) (ringSlot tag)
        have hanswered := answeredBy_changes s r (ringSlot tag) (localOf probe) xs
        rw [hreceived] at hmask hstays hincomplete hpending
        refine answers_next (exec_free (f := report r tag probe xs) rfl hheld htaken)
          ⟨hmask, hstays, fun j hj => (hothers j hj).trans (answeredBy_ring_ne _ _ _ _ _ hj), ?_, hincomplete, hstate,
            ⟨?_, fun q hq => ?_, ?_, ?_⟩, fun q hq => ⟨hlanes q hq, ?_⟩, ?_, ?_⟩
        · have hring := congrArg (fun q : Sequencer => { q with ring := s.seq.ring }) hseq
          exact hring.trans (answeredBy_seq s r _ _ xs)
        · refine (congrArg (fun cs : Vector Coupling 16 => cs[localOf probe]) hcoupling).trans ?_
          exact Vector.getElem_set_self _
        · refine (congrArg (fun cs : Vector Coupling 16 => cs[q]) hcoupling).trans ?_
          exact Vector.getElem_set_ne (localOf probe).isLt q.isLt fun hpq => hq (Fin.ext hpq.symm)
        · exact (changesOnly_same hcompleted .windows (by simp)).trans (answeredBy_windows _ _ _ _ _)
        · exact (changesOnly_same hcompleted .link (by simp)).trans ((answeredBy_link _ _ _ _ _).trans
            (by rw [observed_link]; rfl))
        · exact (congrArg (fun w => w.get q) (changesOnly_same hcompleted .windows (by simp))).trans
            (answeredBy_other _ _ _ _ _ hq)
        · refine hpending.trans ?_
          rw [changesOnly_same hanswered .run (by simp), changesOnly_same hanswered .pending (by simp)]
          refine if_congr ⟨?_, ?_⟩ rfl rfl
          all_goals
            rintro ⟨hdone, hdrains, hkind, hnone⟩
            refine ⟨hdone, hdrains, hkind, fun j hj => ?_⟩
            have hn := hnone j hj
            rw [answeredBy_ring_ne _ _ _ _ _ hj] at *
            exact hn
        · exact changesOnly_trans (changesOnly_mono hanswered (by simp)) (changesOnly_mono hcompleted (by simp))

end Sys2Proof.Machine
end


section
/-! PROOFS. Closing a cell and the drain of a run. -/
namespace Sys2Proof.Machine

/-! ## Closing a cell (R92, R94, R116) -/

theorem reaches_iff (z : Zone) (x : Int) : z.reaches x = true ↔ ∀ e, z.stop = some e → x ≤ e := by
  unfold Zone.reaches
  cases z.stop <;> simp

/-- The groups muted in a cell are those of a zone that holds the rail and overlaps the cell (R94). -/
theorem mutedMask_iff (l : ZoneList) (r : Rail) (n : Nat) (j : Int) (g : Fin 8) :
    (l.mutedMask r n j).getLsbD g.val = true ↔ ∃ z ∈ l.zones, holdsRail z.rails r = true
      ∧ z.groups.getLsbD g.val = true ∧ z.start ≤ j * (n : Int) + n - 1 ∧ ∀ e, z.stop = some e → j * (n : Int) ≤ e := by
  rw [ZoneList.mutedMask, getLsbD_maskOf]
  simp only [List.any_eq_true, Zone.holds, Zone.overlaps, Bool.and_eq_true, decide_eq_true_eq, reaches_iff, and_assoc]

/-- A zone has expired where its end lies below the close tick of every rail it covers (R116). -/
theorem expired_iff (s : State) (z : Zone) : s.expired z = true ↔ ∃ e, z.stop = some e
    ∧ ∀ q : Rail, holdsRail z.rails q = true → e < (s.windows.get q).k * (s.params.cellTicks : Int) := by
  have hrails : ∀ p : Rail → Prop, (∀ q, p q) ↔ p .a ∧ p .b :=
    fun p => ⟨fun h => ⟨h .a, h .b⟩, fun h q => by cases q; exacts [h.1, h.2]⟩
  unfold State.expired
  cases z.stop with
  | none => simp
  | some e =>
    simp only [Option.some.injEq, exists_eq_left', hrails, imp_iff_not_or, Bool.and_eq_true, Bool.or_eq_true,
      Bool.not_eq_true', decide_eq_true_eq, Bool.not_eq_true]
    exact Iff.rfl

/-- The window of a closed cell has its tail longer by that cell, of eight the oldest gone (R92). -/
theorem appendTail_eq (tail : List ClosedCell) (x : ClosedCell) :
    appendTail tail x = if 7 < (tail ++ [x]).length then (tail ++ [x]).tail else tail ++ [x] := by
  unfold appendTail
  dsimp only
  rw [List.drop_one]

/-- The state of a closed cell before its evaluation: the window moved up and the zones tested for expiry (R92). -/
def State.cellClosed (s : State) (r : Rail) (d : Bool) : State := (s.setWindow r (s.closedWindow r d)).expireZones

theorem cellClosed_changes (s : State) (r : Rail) (d : Bool) : changesOnly [.windows, .zones] s (s.cellClosed r d) :=
  changesOnly_trans (changesOnly_mono (setWindow_changes s r _) (by simp))
    (changesOnly_mono (setZones_changes _ _) (by simp))

theorem cellClosed_expired (s : State) (r : Rail) (d : Bool) (z : Zone) :
    (!(s.setWindow r (s.closedWindow r d)).expired z) = false ↔ ∃ e, z.stop = some e
      ∧ ∀ q : Rail, holdsRail z.rails q = true →
          e < ((s.cellClosed r d).windows.get q).k * (s.params.cellTicks : Int) := by
  rw [Bool.not_eq_false']
  exact expired_iff _ z

/-- Settles O22: the closed window, the zones that have not expired, and the evaluation of the cell three below. -/
theorem cellCloses : Obligations.CellCloses := by
  intro r d s hwf
  have hwindow := closeCell_window s r d
  dsimp only
  rw [hwindow]
  refine ⟨mutedMask_iff _ _ _ _, rfl, rfl, rfl, rfl, rfl, Window.groups_put_same hwf _ _,
    fun c hc => Window.groups_put_ne _ hc _, appendTail_eq _ _, fun q hq => ?_,
    ⟨s.cellClosed r d, cellClosed_changes s r d, (closeCell_windows s r d).symm, rfl,
      ⟨_, rfl, cellClosed_expired s r d⟩, rfl⟩, closeCell_changes s r d⟩
  rw [closeCell_windows, PerRail.get_set_ne _ hq]

/-! ## The drain (R30, R61, R105) -/

/-- A rail that is drained leaves the lanes, the run and the coordinates. -/
theorem drainRails_kept (s : State) : changesOnly [.windows, .zones, .eval, .marker, .link] s ((s.drainRail .a).drainRail .b) :=
  changesOnly_trans (drainRail_changes s .a) (drainRail_changes _ .b)

theorem drainRails_windows (s : State) (hwf : ∀ r, (s.windows.get r).wf = true) (r : Rail) :
    (((s.drainRail .a).drainRail .b).windows.get r).k = (s.windows.get r).highest + 4
      ∧ (((s.drainRail .a).drainRail .b).windows.get r).cells = [] := by
  obtain ⟨hka, hcellsa, hothersa⟩ := drainRail_window s .a (hwf .a)
  have hb : (s.drainRail .a).windows.get .b = s.windows.get .b := hothersa .b (by decide)
  obtain ⟨hkb, hcellsb, hothersb⟩ := drainRail_window (s.drainRail .a) .b (by rw [hb]; exact hwf .b)
  cases r with
  | a => rw [hothersb .a (by decide)]; exact ⟨hka, hcellsa⟩
  | b => rw [hb] at hkb; exact ⟨hkb, hcellsb⟩

theorem drainRails_eval (s : State) (r : Rail) :
    (((s.drainRail .a).drainRail .b).eval.gaps.get r).length = 0
      ∧ ∀ p : Fin 32, ((((s.drainRail .a).drainRail .b).eval.runs.get r)[p]).length = 0 := by
  obtain ⟨hrunsa, hgapa, -⟩ := drainRail_eval s .a
  obtain ⟨hrunsb, hgapb, hothers⟩ := drainRail_eval (s.drainRail .a) .b
  cases r with
  | a =>
    obtain ⟨hruns, hgaps⟩ := hothers .a (by decide)
    rw [hruns, hgaps]
    exact ⟨hgapa, hrunsa⟩
  | b => exact ⟨hgapb, hrunsb⟩

/-- The lanes at the end of a drain are DOWN with their coupling records (R61). -/
theorem drainEnd_lanes (s : State) (r : Rail) : (s.drainEnd.lanes.get r).state = .down
    ∧ (s.drainEnd.lanes.get r).coupling = (s.lanes.get r).coupling := by
  show (((s.laneDown .a).laneDown .b).lanes.get r).state = _ ∧ (((s.laneDown .a).laneDown .b).lanes.get r).coupling = _
  obtain ⟨hdowna, hkepta, hothersa⟩ := laneDown_lanes s .a
  obtain ⟨hdownb, hkeptb, hothersb⟩ := laneDown_lanes (s.laneDown .a) .b
  cases r with
  | a => rw [hothersb .a (by decide)]; exact ⟨hdowna, hkepta⟩
  | b => rw [hothersa .b (by decide)] at hkeptb; exact ⟨hdownb, hkeptb⟩

/-- The EVENT of a lane that goes DOWN at the end of a drain, if it was not DOWN (R56). -/
def State.downEvent (s : State) (r : Rail) : List Event :=
  if (s.lanes.get r).state = .down then []
  else [.laneState r .down (s.lanes.get r).state (s.lanes.get r).setupNumber .drainEnd]

theorem drainEnd_link (s : State) : s.drainEnd.link = s.link.told s.odo.cp
    (s.downEvent .a ++ s.downEvent .b ++ [.runState .stopped s.run.state s.run.runNumber .drainEnd]) := by
  have hdown := changesOnly_trans (changesOnly_mono (laneDown_changes s .a) (by simp))
    (laneDown_changes (s.laneDown .a) .b)
  obtain ⟨-, -, hothers⟩ := laneDown_lanes s .a
  have hlink : s.drainEnd.link = ((s.laneDown .a).laneDown .b).link.told ((s.laneDown .a).laneDown .b).odo.cp
      [.runState .stopped ((s.laneDown .a).laneDown .b).run.state ((s.laneDown .a).laneDown .b).run.runNumber .drainEnd] :=
    event_link _ _
  rw [hlink, changesOnly_same hdown .odo (by simp), changesOnly_same hdown .run (by simp), laneDown_link, laneDown_link,
    hothers .b (by decide), changesOnly_same (laneDown_changes s .a) .odo (by simp), told_append, told_append]
  rfl

theorem drainEnd_run (s : State) : s.drainEnd.run = { s.run with state := .stopped } := by
  have hdown := changesOnly_trans (changesOnly_mono (laneDown_changes s .a) (by simp))
    (laneDown_changes (s.laneDown .a) .b)
  show { ((s.laneDown .a).laneDown .b).run with state := .stopped } = _
  rw [changesOnly_same hdown .run (by simp)]

theorem drainEnd_keeps_windows (s : State) : s.drainEnd.windows = s.windows :=
  changesOnly_same (drainEnd_changes s) .windows (by simp)

/-- Settles O23: the two rails drained, the lanes DOWN, the run STOPPED. -/
theorem drainEndsTheRun : Obligations.DrainEndsTheRun := by
  intro s hheld hsound
  obtain ⟨hwfa, hwfb, -, -⟩ := hsound
  have hwf : ∀ r, (s.windows.get r).wf = true := fun r => by cases r; exacts [hwfa, hwfb]
  have hkept := drainRails_kept s
  have hlanes : ((s.drainRail .a).drainRail .b).lanes = s.lanes := changesOnly_same hkept .lanes (by simp)
  have hrun : ((s.drainRail .a).drainRail .b).run = s.run := changesOnly_same hkept .run (by simp)
  have hodo : ((s.drainRail .a).drainRail .b).odo = s.odo := changesOnly_same hkept .odo (by simp)
  refine answers_free (f := drain) rfl hheld ?_
  split
  case isFalse hno => exact if_neg fun h => hno ((drainStarts_iff s).1 h)
  case isTrue hstarts =>
    have hdrain : drain s = ((s.drainRail .a).drainRail .b).drainEnd := if_pos ((drainStarts_iff s).2 hstarts)
    have hended := drainEnd_changes ((s.drainRail .a).drainRail .b)
    rw [hdrain]
    refine ⟨?_, fun r => ?_, ?_, ?_⟩
    · rw [drainEnd_run, hrun]
    · obtain ⟨hk, hcells⟩ := drainRails_windows s hwf r
      obtain ⟨hdown, hcoupling⟩ := drainEnd_lanes ((s.drainRail .a).drainRail .b) r
      obtain ⟨hgap, hruns⟩ := drainRails_eval s r
      rw [hlanes] at hcoupling
      rw [drainEnd_keeps_windows, changesOnly_same hended .eval (by simp)]
      exact ⟨hk, hcells, hdown, hcoupling, hgap, hruns⟩
    · rw [drainEnd_link, hodo, hrun, hstarts.1]
      unfold State.downEvent
      rw [hlanes]
    · exact changesOnly_trans (changesOnly_mono hkept (by simp)) (changesOnly_mono hended (by simp))

end Sys2Proof.Machine
end


section
/-! PROOFS. The Odometry Unit: standstill and speed, the slip window and the lift input. -/
namespace Sys2Proof.Machine

/-! ## Standstill and speed (R8, R9, R148) -/

theorem dueTests_marker (s : State) : s.dueTests.marker.lead = s.marker.lead ∧ s.dueTests.marker.sprays = s.marker.sprays := by
  obtain ⟨-, -, -, -, hspraysa, hleada⟩ := dueTest_engine s .a
  obtain ⟨-, -, -, -, hspraysb, hleadb⟩ := dueTest_engine (s.dueTest .a) .b
  exact ⟨hleadb.trans hleada, hspraysb.trans hspraysa⟩

/-- The keep-alive timer alone is judged. -/
theorem settleKeepAlive_eq (s : State) : s.settleKeepAlive = s.setSeq s.settleKeepAlive.seq := by
  unfold State.settleKeepAlive
  split
  · rfl
  · rfl

theorem settleKeepAlive_rest (s : State) :
    { s.settleKeepAlive.seq with keepAliveTimer := s.seq.keepAliveTimer } = s.seq := by
  rw [settleKeepAlive_seq]

/-- The state with STANDSTILL set and its EVENT told, before the lead and the due tests (R9). -/
def State.stoodStill (s : State) : State :=
  ((s.setOdo { s.odo with
    standstill := true, speed := 0, standstillTimer := max s.odo.standstillTimer s.params.stillMs }).event
      (.standstill true)).settleKeepAlive

theorem standstillSet_of_clear {s : State} (h : s.odo.standstill = false) :
    standstillSet s = s.stoodStill.updateLead.dueTests := if_neg (by simp [h])

theorem stoodStill_lead (s : State) : s.stoodStill.updateLead.marker = { s.marker with lead := 0 } := by
  have hsettled : ∀ u : State, u.odo.speed = 0 → u.settleKeepAlive.updateLead.marker = { u.marker with lead := 0 } := by
    intro u hu
    have hkept := settleKeepAlive_changes u
    unfold State.updateLead
    rw [State.setMarker_marker, changesOnly_same hkept .marker (by simp), changesOnly_same hkept .odo (by simp), hu]
    simp [leadOf]
  exact hsettled _ rfl

theorem stoodStill_odo (s : State) : s.stoodStill.odo = { s.odo with
    standstill := true, speed := 0, standstillTimer := max s.odo.standstillTimer s.params.stillMs } :=
  changesOnly_same (settleKeepAlive_changes _) .odo (by simp)

/-- Settles O6: STANDSTILL set, and the end of a speed interval, each before the due tests. -/
theorem speedAndStandstill : Obligations.SpeedAndStandstill := by
  refine ⟨fun s hheld => answers_free (f := standstillSet) rfl hheld ?_,
    fun s hheld => answers_free (f := speedIntervalEnd) rfl hheld ?_⟩
  · split
    case isTrue hset => exact if_pos hset
    case isFalse hclear =>
      rw [standstillSet_of_clear (by simpa using hclear)]
      have hdue := dueTests_changes s.stoodStill.updateLead
      have hodo : s.stoodStill.updateLead.dueTests.odo = _ :=
        (changesOnly_same hdue .odo (by simp)).trans (stoodStill_odo s)
      have hseq : s.stoodStill.updateLead.dueTests.seq = s.stoodStill.seq := changesOnly_same hdue .seq (by simp)
      have hmarker := stoodStill_lead s
      obtain ⟨hlead, hsprays⟩ := dueTests_marker s.stoodStill.updateLead
      have hpre : s.stoodStill.updateLead = ({ s with
          odo := s.stoodStill.odo, seq := s.stoodStill.seq, marker := { s.marker with lead := 0 }
          link := s.link.told s.odo.cp [.standstill true] } : State) := by
        rw [← hmarker]
        unfold State.stoodStill
        rw [settleKeepAlive_eq]
        rfl
      refine ⟨by rw [hodo], by rw [hodo], by rw [hlead, hmarker], by rw [hodo], by rw [hsprays, hmarker], ?_, ?_, ?_⟩
      · rw [hseq]
        exact settleKeepAlive_rest _
      · rw [hseq, hodo, ← stoodStill_odo, ← hpre]
      · rw [hpre]
        exact changesOnly_trans (t := ({ s with
          odo := s.stoodStill.odo, seq := s.stoodStill.seq, marker := { s.marker with lead := 0 }
          link := s.link.told s.odo.cp [.standstill true] } : State)) (fun b => by cases b <;> simp [Block.same])
          (changesOnly_mono (dueTests_changes _) (by simp))
  · have hdue := dueTests_changes (State.updateLead (s.setOdo { s.odo with speed := speedOf s.odo.intervalCount, intervalCount := 0 }))
    obtain ⟨hlead, hsprays⟩ := dueTests_marker (State.updateLead (s.setOdo { s.odo with speed := speedOf s.odo.intervalCount, intervalCount := 0 }))
    have hodo : (speedIntervalEnd s).odo = { s.odo with speed := speedOf s.odo.intervalCount, intervalCount := 0 } :=
      changesOnly_same hdue .odo (by simp)
    have hlead' : (speedIntervalEnd s).marker.lead = leadOf (speedOf s.odo.intervalCount) s.params.valveLatencyUs := hlead
    refine ⟨hodo, by rw [hlead', hodo]; rfl, hsprays, by rw [hodo, hlead']; rfl, ?_⟩
    exact changesOnly_trans (changesOnly_mono (setOdo_changes s _) (by simp))
      (changesOnly_trans (changesOnly_mono (updateLead_changes _) (by simp)) (changesOnly_mono hdue (by simp)))

/-! ## The slip window (R10–R12) -/

theorem failover_odo (s : State) : s.failover.odo = { s.odo with
    source := if s.params.secondaryMode = .failover then s.odo.chosenSource else s.odo.source } := by
  unfold State.failover
  split
  · exact eventIf_odo _ _ _
  · rfl

/-- SLIP after the streaks are judged (R11). -/
def Odometry.slipDecided (o : Odometry) : Bool :=
  if o.slip = false then decide (o.mismatch = 3) else decide (o.agreement ≠ 10)

/-- The source once SLIP is decided: chosen again where it becomes set in FAILOVER (R12). -/
def Odometry.sourceDecided (o : Odometry) (mode : SecondaryMode) : Encoder :=
  if mode = .failover ∧ o.slip = false ∧ o.slipDecided = true then o.chosenSource else o.source

theorem sourceDecided_set {o : Odometry} {mode : SecondaryMode} (hclear : o.slip = false) (hset : o.slipDecided = true) :
    o.sourceDecided mode = if mode = .failover then o.chosenSource else o.source :=
  if_congr (and_iff_left ⟨hclear, hset⟩) rfl rfl

theorem sourceDecided_kept {o : Odometry} {mode : SecondaryMode} (h : o.slip = true ∨ o.slipDecided = false) :
    o.sourceDecided mode = o.source :=
  if_neg fun ⟨_, hclear, hset⟩ => h.elim (fun hslip => Bool.false_ne_true (hclear.symm.trans hslip))
    fun hkept => Bool.false_ne_true (hkept.symm.trans hset)

/-- SLIP decided changes SLIP and the source, each with its EVENT (R11, R12). -/
theorem decideSlip_spec (s : State) :
    s.decideSlip.odo = { s.odo with
      slip := s.odo.slipDecided, source := s.odo.sourceDecided s.params.secondaryMode }
    ∧ s.decideSlip.link = s.link.told s.odo.cp
        ((if s.odo.slipDecided = s.odo.slip then [] else [.slip s.odo.slipDecided s.odo.deltaP s.odo.deltaS])
          ++ (if s.odo.sourceDecided s.params.secondaryMode = s.odo.source then []
            else [.source (s.odo.sourceDecided s.params.secondaryMode) .failover])) := by
  unfold State.decideSlip
  cases hslip : s.odo.slip with
  | false =>
    have hdecided : s.odo.slipDecided = decide (s.odo.mismatch = 3) := if_pos hslip
    by_cases hmismatch : s.odo.mismatch = 3
    · rw [decide_eq_true hmismatch] at hdecided
      rw [if_pos ⟨rfl, hmismatch⟩, failover_odo, failover_link, failover_odo, sourceDecided_set hslip hdecided, hdecided,
        if_neg Bool.true_eq_false_eq_False, told_append]
      exact ⟨rfl, rfl⟩
    · rw [decide_eq_false hmismatch] at hdecided
      rw [if_neg fun h => hmismatch h.2, if_neg fun h => Bool.false_ne_true h.1, sourceDecided_kept (.inr hdecided),
        hdecided, if_pos rfl, if_pos rfl, ← hslip]
      exact ⟨rfl, rfl⟩
  | true =>
    have hdecided : s.odo.slipDecided = decide (s.odo.agreement ≠ 10) := if_neg (by simp [hslip])
    rw [if_neg fun h => Bool.false_ne_true h.1.symm, sourceDecided_kept (.inl hslip), if_pos rfl, List.append_nil]
    by_cases hagreement : s.odo.agreement = 10
    · rw [decide_eq_false (not_not.2 hagreement)] at hdecided
      rw [if_pos ⟨rfl, hagreement⟩, hdecided, if_neg Bool.false_ne_true]
      exact ⟨rfl, rfl⟩
    · rw [decide_eq_true hagreement] at hdecided
      rw [if_neg fun h => hagreement h.2, hdecided, if_pos rfl, ← hslip]
      exact ⟨rfl, rfl⟩

/-- The odometry with its streaks judged, unless SECONDARY_MODE is OFF (R10). -/
def State.streaksJudged (s : State) : Odometry := s.odo.judgeWindow s.mismatched

theorem judgeSlip_off {s : State} (h : s.params.secondaryMode = .off) : s.judgeSlip = s := if_pos h

theorem judgeSlip_on {s : State} (h : s.params.secondaryMode ≠ .off) :
    s.judgeSlip = (s.setOdo s.streaksJudged).decideSlip := if_neg h

/-- Judging a window changes the streaks and the deltas kept of it alone (R10, R11). -/
theorem streaksJudged_eq (s : State) : s.streaksJudged = { s.odo with
    mismatch := if s.params.slipLimit < (s.odo.deltaP - s.odo.deltaS).natAbs then min (s.odo.mismatch + 1) 3 else 0
    agreement := if s.params.slipLimit < (s.odo.deltaP - s.odo.deltaS).natAbs then 0 else min (s.odo.agreement + 1) 10
    judgedP := s.odo.deltaP, judgedS := s.odo.deltaS } := by
  unfold State.streaksJudged Odometry.judgeWindow State.mismatched
  simp only [decide_eq_true_eq]
  split
  · rfl
  · rfl

/-- The end of a slip window from the judged one: its EVENT of errors, and the counts at 0 (R3). -/
theorem slipWindowEnd_odo (s : State) : (slipWindowEnd s).odo = { s.judgeSlip.odo with
    deltaP := 0, deltaS := 0, windowErrP := 0, windowErrS := 0 } := by
  show { s.judgeSlip.reportErrors.odo with deltaP := 0, deltaS := 0, windowErrP := 0, windowErrS := 0 } = _
  rw [State.reportErrors, eventIf_odo]

theorem slipWindowEnd_link (s : State) : (slipWindowEnd s).link = s.judgeSlip.link.told s.judgeSlip.odo.cp
    (if s.judgeSlip.odo.windowErrP = 0 ∧ s.judgeSlip.odo.windowErrS = 0 then []
      else [.encoderError s.judgeSlip.odo.windowErrP s.judgeSlip.odo.windowErrS s.judgeSlip.odo.errorTally]) := by
  refine (eventIf_link _ _ _).trans (congrArg _ ?_)
  by_cases h : s.judgeSlip.odo.windowErrP = 0 ∧ s.judgeSlip.odo.windowErrS = 0
  · rw [if_pos h, if_neg (by simp [h])]
  · rw [if_neg h, if_pos (by simpa [imp_iff_not_or, not_and_or] using h)]

/-- Settles O7: the window judged unless SECONDARY_MODE is OFF, then its errors and its counts. -/
theorem slipWindowIsJudged : Obligations.SlipWindowIsJudged := by
  intro s hheld
  refine answers_free (f := slipWindowEnd) rfl hheld ?_
  rw [slipWindowEnd_odo, slipWindowEnd_link]
  by_cases hoff : s.params.secondaryMode = .off
  · rw [judgeSlip_off hoff, if_pos hoff, if_pos rfl, if_pos rfl]
    exact ⟨rfl, rfl, rfl, rfl, rfl, rfl, rfl, rfl, slipWindowEnd_changes s, ⟨rfl, rfl, rfl, rfl⟩, rfl⟩
  · obtain ⟨hodo, hlink⟩ := decideSlip_spec (s.setOdo s.streaksJudged)
    rw [judgeSlip_on hoff, if_neg hoff, hodo, hlink, State.setOdo_odo, State.setOdo_link, State.setOdo_params,
      streaksJudged_eq, ← told_append]
    exact ⟨rfl, rfl, rfl, rfl, rfl, rfl, rfl, rfl, slipWindowEnd_changes s, ⟨rfl, rfl, rfl, rfl⟩, rfl⟩

/-! ## The lift input (R14, R26, R46) -/

/-- The state that has taken a lift sample, before a change of LIFTED (R14). -/
def State.liftSampled (s : State) (v : Bool) : State :=
  (s.setOdo { s.odo with liftSample := v, liftTimer := 0 }).setPins { s.pins with lift := v }

/-- The state with LIFTED changed, its EVENT told and a cycle in progress marked, before suspension is judged (R14,
R46). -/
def State.liftTold (s : State) (v : Bool) : State :=
  let t := ((s.liftSampled v).setOdo { (s.liftSampled v).odo with lifted := v }).event (.lift v)
  if v then t.markStopping else t

theorem liftSample_kept {s : State} {v : Bool} (h : ¬ (s.odo.liftSample = v ∧ s.odo.lifted ≠ v)) :
    liftSample v s = s.liftSampled v := if_neg h

theorem liftSample_taken {s : State} {v : Bool} (h : s.odo.liftSample = v ∧ s.odo.lifted ≠ v) :
    liftSample v s = ((s.liftTold v).judgeSuspension .lift .lift).settleKeepAlive := if_pos h

theorem markStopping_cycle (s : State) : s.markStopping.seq.cycle = s.seq.cycle := by
  obtain ⟨hseq, -⟩ := markStopping_seq s
  rw [hseq]

theorem markStopping_ring (s : State) : s.markStopping.seq.ring = s.seq.ring := by
  obtain ⟨hseq, -⟩ := markStopping_seq s
  rw [hseq]

theorem markStopping_set {s : State} (h : s.seq.cycle ≠ .idle) : s.markStopping.seq.stopping = true := by
  obtain ⟨-, hset⟩ := markStopping_seq s
  exact hset h

/-- Telling a change of LIFTED changes the sequencer, if at all, in the stopping mark (R46). -/
theorem liftTold_spec (s : State) (v : Bool) :
    changesOnly [.seq] (((s.liftSampled v).setOdo { (s.liftSampled v).odo with lifted := v }).event (.lift v)) (s.liftTold v)
      ∧ (s.liftTold v).seq.cycle = s.seq.cycle ∧ (s.liftTold v).seq.ring = s.seq.ring
      ∧ (v = true → s.seq.cycle ≠ .idle → (s.liftTold v).seq.stopping = true) := by
  unfold State.liftTold
  cases v with
  | false => exact ⟨changesOnly_refl _ _, rfl, rfl, fun h => absurd h Bool.false_ne_true⟩
  | true =>
    exact ⟨markStopping_changes _, markStopping_cycle _, markStopping_ring _, fun _ hcycle => markStopping_set hcycle⟩

/-- The state that a lift sample leaves where it changes LIFTED: odometry, run and sequencer (R14, R26, R40). -/
theorem liftSample_taken_spec {s : State} {v : Bool} (h : s.odo.liftSample = v ∧ s.odo.lifted ≠ v) :
    (liftSample v s).odo = { s.odo with liftSample := v, liftTimer := 0, lifted := v }
      ∧ (liftSample v s).run = { s.run with suspension := (s.liftTold v).suspensionCause }
      ∧ { (liftSample v s).seq with keepAliveTimer := (s.liftTold v).seq.keepAliveTimer } = (s.liftTold v).seq := by
  obtain ⟨htold, -⟩ := liftTold_spec s v
  have hjudged := judgeSuspension_changes (s.liftTold v) .lift .lift
  have hsettled := settleKeepAlive_changes ((s.liftTold v).judgeSuspension .lift .lift)
  have hrest := settleKeepAlive_rest ((s.liftTold v).judgeSuspension .lift .lift)
  rw [changesOnly_same hjudged .seq (by simp)] at hrest
  rw [liftSample_taken h, changesOnly_same hsettled .odo (by simp), changesOnly_same hjudged .odo (by simp),
    changesOnly_same htold .odo (by simp), changesOnly_same hsettled .run (by simp), judgeSuspension_run,
    changesOnly_same htold .run (by simp)]
  exact ⟨rfl, rfl, hrest⟩

/-- A suspension cause once LIFTED is changed (R26). -/
theorem liftTold_cause (s : State) (v : Bool) :
    (s.liftTold v).suspensionCause = decide (s.run.state = .paused ∨ (s.run.state = .running ∧ v = true)) := by
  obtain ⟨htold, -⟩ := liftTold_spec s v
  have hodo : (s.liftTold v).odo.lifted = v := by rw [changesOnly_same htold .odo (by simp)]; rfl
  have hrun : (s.liftTold v).run = s.run := changesOnly_same htold .run (by simp)
  unfold State.suspensionCause
  rw [hodo, hrun]
  simp

/-- The zones and the link of a change of LIFTED: suspension judged with the LIFT EVENT told (R26, R118, R119). -/
theorem liftSample_taken_suspends {s : State} {v : Bool} (h : s.odo.liftSample = v ∧ s.odo.lifted ≠ v) :
    (liftSample v s).zones = s.zonesWhen (s.liftTold v).suspensionCause
      ∧ (liftSample v s).link = (({ s with
          odo := (liftSample v s).odo, link := s.link.told s.odo.cp [.lift v] } : State).suspendedTo
            (s.liftTold v).suspensionCause .lift .lift).link := by
  obtain ⟨htold, -⟩ := liftTold_spec s v
  obtain ⟨hodo, -⟩ := liftSample_taken_spec h
  have hsettled := settleKeepAlive_changes ((s.liftTold v).judgeSuspension .lift .lift)
  have hrun : (s.liftTold v).run = s.run := changesOnly_same htold .run (by simp)
  have hparams : (s.liftTold v).params = s.params := changesOnly_same htold .params (by simp)
  have hzones : (s.liftTold v).zones = s.zones := changesOnly_same htold .zones (by simp)
  have hcp : (s.liftTold v).odo.cp = s.odo.cp := by rw [changesOnly_same htold .odo (by simp)]; rfl
  have hlink : (s.liftTold v).link = s.link.told s.odo.cp [.lift v] := changesOnly_same htold .link (by simp)
  refine ⟨?_, ?_⟩
  · rw [liftSample_taken h, changesOnly_same hsettled .zones (by simp), judgeSuspension_zones]
    exact zonesWhen_congr hzones hcp (by rw [hrun]) (by rw [hrun]) hparams _
  · rw [hodo, liftSample_taken h, changesOnly_same hsettled .link (by simp), judgeSuspension_eq]
    exact suspendedTo_link (by exact hcp) (by rw [hrun]) (by rw [hrun]) (by exact hparams) (by exact hzones)
      (by exact hlink) _ _ _

/-- Settles O8: a sample that changes LIFTED, and one that does not. -/
theorem liftSampleDebounces : Obligations.LiftSampleDebounces := by
  intro v s hheld
  refine answers_free (f := liftSample v) rfl hheld ?_
  by_cases htaken : s.odo.liftSample = v ∧ s.odo.lifted ≠ v
  · obtain ⟨-, hcycle, hring, hstopping⟩ := liftTold_spec s v
    obtain ⟨hodo, hrun, hseq⟩ := liftSample_taken_spec htaken
    obtain ⟨hzones, hlink⟩ := liftSample_taken_suspends htaken
    have hlifted : (liftSample v s).odo.lifted = v := by rw [hodo]
    have hchanged : ¬ v = s.odo.lifted := fun h => htaken.2 h.symm
    rw [hlifted, if_neg hchanged, if_neg hchanged, hzones, hrun]
    refine ⟨by rw [hodo], (if_pos htaken.1).symm, by rw [hodo], rfl, rfl, rfl, liftTold_cause s v, fun _ hv hc => ?_, ?_, ?_,
      rfl, hlink, liftSample_changes v s⟩
    · exact (congrArg Sequencer.stopping hseq).trans (hstopping hv hc)
    · exact (congrArg Sequencer.cycle hseq).trans hcycle
    · exact (congrArg Sequencer.ring hseq).trans hring
  · have hkept : liftSample v s = s.liftSampled v := liftSample_kept htaken
    have hlifted : s.odo.lifted = if s.odo.liftSample = v then v else s.odo.lifted := by
      split
      case isTrue hsame => exact not_not.1 fun h => htaken ⟨hsame, h⟩
      case isFalse => rfl
    have hchanges := liftSample_changes v s
    rw [hkept] at hchanges ⊢
    refine ⟨rfl, hlifted, rfl, rfl, rfl, rfl, (if_pos rfl).symm, fun h => absurd rfl h, rfl, rfl, (if_pos rfl).symm,
      (if_pos rfl).symm, hchanges⟩

end Sys2Proof.Machine
end


section
/-! PROOFS. A tick of the source and what a change of CP starts. -/
namespace Sys2Proof.Machine

/-! ## The head a due test leaves (R149, R152) -/

/-- A head that a due test leaves: latched if it is EITHER and has crossed, and not one that DROP removes (R149, R152). -/
def State.settledHead (s : State) (r : Rail) (x : MarkerEntry) : Prop :=
  (x.arming = .either → crossed x.side (s.past r x) = true → x.due = true)
    ∧ ¬ (x.arming = .normal ∧ s.params.latePolicy.get r = .drop ∧ (s.params.lateTol : Int) < s.past r x)

theorem latch_normal (s : State) (r : Rail) {e : MarkerEntry} (h : e.arming = .normal) : s.latch r e = e := by
  unfold State.latch
  rw [h]

theorem latch_either (s : State) (r : Rail) {e : MarkerEntry} (h : e.arming = .either) :
    s.latch r e = { e with due := e.due || crossed e.side (s.past r e) } := by
  unfold State.latch
  rw [h]

/-- A latched head that DROP does not remove is settled. -/
theorem settledHead_latch {s : State} {r : Rail} {e : MarkerEntry} (h : ¬ ((s.isDue r (s.latch r e)
    && decide (s.params.latePolicy.get r = .drop) && decide ((s.params.lateTol : Int) < s.lateness r e)) = true)) :
    s.settledHead r (s.latch r e) := by
  cases harming : e.arming with
  | normal =>
    rw [latch_normal s r harming] at h ⊢
    simp only [State.isDue, State.lateness, harming, Bool.and_eq_true, decide_eq_true_eq, and_assoc] at h
    refine ⟨fun heither => ?_, fun ⟨_, hdrop, hlate⟩ => h ⟨?_, hdrop, hlate⟩⟩
    · rw [harming] at heither
      exact absurd heither (by decide)
    · omega
  | either =>
    rw [latch_either s r harming]
    refine ⟨fun _ hcrossed => ?_, fun ⟨hnormal, _⟩ => ?_⟩
    · have hc : crossed e.side (s.past r e) = true := hcrossed
      show (e.due || crossed e.side (s.past r e)) = true
      rw [hc, Bool.or_true]
    · exact Arming.noConfusion (harming.symm.trans hnormal)

theorem dueTestLoop_head (r : Rail) (n : Nat) (s : State) (hn : (s.marker.engines.get r).queue.length < n)
    {x : MarkerEntry} {rest : List MarkerEntry} (hx : ((dueTestLoop r n s).marker.engines.get r).queue = x :: rest) :
    s.settledHead r x := by
  induction n generalizing s with
  | zero => exact absurd hn (Nat.not_lt_zero _)
  | succ n ih =>
    unfold dueTestLoop at hx
    split at hx
    case h_1 hempty => exact absurd (hempty.symm.trans hx) (List.cons_ne_nil _ _).symm
    case h_2 e more hqueue =>
      split at hx
      case isTrue =>
        refine ih ((s.setQueue r more).emit (s.markRecord r .droppedLate e (s.lateness r e))) ?_ hx
        rw [hqueue, List.length_cons] at hn
        simpa [State.setQueue] using Nat.lt_of_succ_lt_succ hn
      case isFalse hstays =>
        have hhead : s.latch r e :: more = x :: rest := by simpa [State.setQueue] using hx
        obtain ⟨rfl, -⟩ := List.cons.inj hhead
        exact settledHead_latch hstays

theorem dueTest_head {s : State} {r : Rail} {x : MarkerEntry} {rest : List MarkerEntry}
    (hx : ((s.dueTest r).marker.engines.get r).queue = x :: rest) : s.settledHead r x :=
  dueTestLoop_head r _ s (Nat.lt_succ_self _) hx

/-- What settles a head are CP, the parameters and the lead. -/
theorem settledHead_congr {s t : State} (hodo : t.odo = s.odo) (hparams : t.params = s.params)
    (hlead : t.marker.lead = s.marker.lead) {r : Rail} {x : MarkerEntry} (h : s.settledHead r x) : t.settledHead r x := by
  unfold State.settledHead State.past State.gun State.firePoint at *
  rwa [hodo, hparams, hlead]

/-- Each head that the due tests of both rails leave is settled. -/
theorem dueTests_head {s : State} {r : Rail} {x : MarkerEntry} {rest : List MarkerEntry}
    (hx : (s.dueTests.marker.engines.get r).queue = x :: rest) : s.dueTests.settledHead r x := by
  have hkept := dueTests_changes s
  have ha := dueTest_changes s .a
  obtain ⟨-, -, -, -, -, hleada⟩ := dueTest_engine s .a
  obtain ⟨hothers, -, -, -, -, -⟩ := dueTest_engine (s.dueTest .a) .b
  obtain ⟨hlead, -⟩ := dueTests_marker s
  refine settledHead_congr (changesOnly_same hkept .odo (by simp)) (changesOnly_same hkept .params (by simp)) hlead ?_
  cases r with
  | a => exact dueTest_head ((congrArg Engine.queue (hothers .a (by decide))).symm.trans hx)
  | b =>
    exact settledHead_congr (changesOnly_same ha .odo (by simp)).symm (changesOnly_same ha .params (by simp)).symm
      hleada.symm (dueTest_head (s := s.dueTest .a) hx)

/-! ## What a change of CP starts (R39, R91, R149, R155) -/

/-- The state once both engines have counted a change of CP (R155). -/
def State.distanceCounted (s : State) : State := (s.countDistance .a).countDistance .b

theorem distanceCounted_changes (s : State) : changesOnly [.marker] s s.distanceCounted :=
  changesOnly_trans (countDistance_changes s .a) (countDistance_changes _ .b)

/-- What follows the close lines and makes the due tests after the trigger is tested. -/
theorem cpChanged_after (s : State) : changesOnly [.windows, .zones, .eval, .marker, .link] s.distanceCounted.testDistance s.cpChanged :=
  changesOnly_trans (changesOnly_trans (followCloseLine_changes _ .a) (followCloseLine_changes _ .b))
    (changesOnly_mono (dueTests_changes _) (by simp))

theorem distanceCounted_engines (s : State) (r : Rail) :
    (s.distanceCounted.marker.engines.get r).state = (s.marker.engines.get r).state.countDistance
      ∧ (s.distanceCounted.marker.engines.get r).valves = (s.marker.engines.get r).valves := by
  cases r
  all_goals exact ⟨rfl, rfl⟩

/-- A change of CP leaves the valves, and of a mark counts the distance alone (R155). -/
theorem cpChanged_engines (s : State) (r : Rail) :
    (s.cpChanged.marker.engines.get r).state = (s.marker.engines.get r).state.countDistance
      ∧ (s.cpChanged.marker.engines.get r).valves = (s.marker.engines.get r).valves := by
  have hsame : sameEngines s.distanceCounted s.cpChanged :=
    SameEngines.trans (SameEngines.of (testDistance_changes _) (by simp))
      (SameEngines.trans (SameEngines.followCloseLine _ .a)
        (SameEngines.trans (SameEngines.followCloseLine _ .b) (SameEngines.dueTests _)))
  obtain ⟨hstate, hvalves⟩ := hsame r
  obtain ⟨hcounted, hkept⟩ := distanceCounted_engines s r
  exact ⟨hstate.trans hcounted, hvalves.trans hkept⟩

/-- The computed close index is formed from CP, the reach, CLOSE_MARGIN and CELL_TICKS (R91). -/
theorem computedK_congr {s t : State} (hodo : t.odo = s.odo) (hrun : t.run = s.run) (hparams : t.params = s.params)
    (r : Rail) : t.computedK r = s.computedK r := by
  unfold State.computedK
  rw [hodo, hrun, hparams]

/-- A change of CP follows the close line of each window in a run (R91). -/
theorem cpChanged_windows (s : State) (r : Rail) : (s.cpChanged.windows.get r).k =
    if s.run.state ≠ .stopped then max (s.windows.get r).k (s.computedK r) else (s.windows.get r).k := by
  have htested : changesOnly [.marker, .seq, .lanes, .link] s s.distanceCounted.testDistance :=
    changesOnly_trans (changesOnly_mono (distanceCounted_changes s) (by simp))
      (changesOnly_mono (testDistance_changes _) (by simp))
  have hfollowed := changesOnly_trans (changesOnly_mono htested (by simp))
    (changesOnly_mono (followCloseLine_changes s.distanceCounted.testDistance .a)
      (cs := [.marker, .seq, .lanes, .link, .windows, .zones, .eval]) (by simp))
  obtain ⟨hothersa, hka⟩ := followCloseLine_windows s.distanceCounted.testDistance .a
  obtain ⟨hothersb, hkb⟩ := followCloseLine_windows (s.distanceCounted.testDistance.followCloseLine .a) .b
  have hwindows : s.cpChanged.windows = ((s.distanceCounted.testDistance.followCloseLine .a).followCloseLine .b).windows :=
    changesOnly_same (dueTests_changes _) .windows (by simp)
  rw [hwindows, ite_not]
  cases r with
  | a =>
    rw [hothersb .a (by decide), hka, changesOnly_same htested .windows (by simp), changesOnly_same htested .run (by simp),
      computedK_congr (changesOnly_same htested .odo (by simp)) (changesOnly_same htested .run (by simp))
        (changesOnly_same htested .params (by simp))]
  | b =>
    rw [hkb, hothersa .b (by decide), changesOnly_same htested .windows (by simp),
      changesOnly_same hfollowed .run (by simp),
      computedK_congr (changesOnly_same hfollowed .odo (by simp)) (changesOnly_same hfollowed .run (by simp))
        (changesOnly_same hfollowed .params (by simp))]

/-- What a change of CP leaves of the sequencer while STANDSTILL is clear: a trigger taken, or nothing (R39, R44). -/
theorem cpChanged_seq (s : State) (hstill : s.odo.standstill = false) :
    if s.run.state = .running ∧ s.run.suspension = false ∧ s.params.fireSpacing ≤ (s.odo.cp - s.seq.lastTrigger).natAbs then
      s.cpChanged.seq.lastTrigger = s.odo.cp
        ∧ (s.seq.cycle = .idle → s.params.stepCount ≠ 0 →
            s.cpChanged.seq.cycle = .stepping 0 ∧ s.cpChanged.seq.kind = .distance)
        ∧ (s.seq.cycle ≠ .idle → s.cpChanged.seq.cycle = s.seq.cycle ∧ s.cpChanged.seq.pendingTrigger = true
            ∧ s.cpChanged.seq.overrun = (s.seq.overrun || s.seq.pendingTrigger))
    else s.cpChanged.seq = s.seq := by
  have hcounted := distanceCounted_changes s
  have htested := distanceTriggerIsTested s.distanceCounted
  rw [changesOnly_same (cpChanged_after s) .seq (by simp)]
  rw [changesOnly_same hcounted .odo (by simp), changesOnly_same hcounted .run (by simp),
    changesOnly_same hcounted .params (by simp), changesOnly_same hcounted .seq (by simp)] at htested
  split at htested
  case isTrue hdue =>
    obtain ⟨hrunning, hsuspension, -, hspacing⟩ := hdue
    obtain ⟨htrigger, -, hcases⟩ := htested
    rw [if_pos ⟨hrunning, hsuspension, hspacing⟩]
    refine ⟨htrigger, fun hidle hsteps => ?_, fun hbusy => ?_⟩
    · rw [hidle] at hcases
      obtain ⟨hcycle, hkind, -⟩ := hcases.2 hsteps
      exact ⟨hcycle, hkind⟩
    · cases hcycle : s.seq.cycle with
      | idle => exact absurd hcycle hbusy
      | stepping k =>
        rw [hcycle] at hcases
        obtain ⟨hstays, hpending, hoverrun, -⟩ := hcases
        exact ⟨hstays, hpending, hoverrun⟩
  case isFalse hnot =>
    rw [if_neg fun ⟨hrunning, hsuspension, hspacing⟩ => hnot ⟨hrunning, hsuspension, hstill, hspacing⟩, htested]
    exact changesOnly_same hcounted .seq (by simp)

/-! ## The tick itself (R5–R7, R9) -/

/-- The state with a source tick counted and its conditions judged, before what a change of CP starts (R5–R7, R9). -/
def State.tickJudged (s : State) (e : Encoder) (d : Direction) : State :=
  let t := s.turn e ((s.odo.quadrature e).ticked d)
  let u := t.setOdo (t.odo.addDelta e d)
  (u.setOdo (u.odo.sourceTick d)).judgeTick

/-- The odometry of a tick before its conditions are judged (R2, R5). -/
def State.tickCounted (s : State) (e : Encoder) (d : Direction) : Odometry :=
  (((s.odo.setQuadrature e ((s.odo.quadrature e).ticked d)).addDelta e d).sourceTick d)

theorem tickCounted_eq (s : State) (e : Encoder) (d : Direction) : s.tickCounted e d = { s.odo with
    enc1 := (s.tickCounted e d).enc1, enc2 := (s.tickCounted e d).enc2
    cp := movedCp s.odo.cp d, hw := max s.odo.hw (movedCp s.odo.cp d), direction := d
    intervalCount := s.odo.intervalCount + 1, standstillTimer := 0
    deltaP := s.odo.deltaP + (if e = .primary then tickSign d else 0)
    deltaS := s.odo.deltaS + (if e = .secondary then tickSign d else 0) } := by
  cases e
  all_goals simp [State.tickCounted, Odometry.addDelta, Odometry.setQuadrature, Odometry.sourceTick]

theorem tickJudged_odo (s : State) (e : Encoder) (d : Direction) : (s.tickJudged e d).odo = { s.tickCounted e d with
    limit := limitOf (s.tickCounted e d).cp, retrace := decide ((s.tickCounted e d).cp < (s.tickCounted e d).hw)
    standstill := false } := judgeTick_odo _

theorem encoderTick_source {s : State} {e : Encoder} {d : Direction} (h : e = s.odo.source) :
    encoderTick e d s = if (s.tickJudged e d).odo.cp = s.odo.cp then s.tickJudged e d else (s.tickJudged e d).cpChanged := by
  have hcp : (s.tickJudged e d).odo.cp = movedCp s.odo.cp d := by
    rw [tickJudged_odo, tickCounted_eq]
  have hbefore : ((s.odo.setQuadrature e ((s.odo.quadrature e).ticked d)).addDelta e d).cp = s.odo.cp := by
    cases e
    all_goals rfl
  rw [hcp]
  refine (if_pos h).trans ?_
  show (if movedCp ((s.odo.setQuadrature e ((s.odo.quadrature e).ticked d)).addDelta e d).cp d =
    ((s.odo.setQuadrature e ((s.odo.quadrature e).ticked d)).addDelta e d).cp then _ else _) = _
  rw [hbefore]
  rfl

/-- The EVENTs of the conditions that a tick changes: LIMIT, RETRACE, STANDSTILL (R6, R7, R9). -/
theorem judgeTick_link (s : State) : s.judgeTick.link = s.link.told s.odo.cp
    ((if limitOf s.odo.cp = s.odo.limit then []
      else match limitOf s.odo.cp, s.odo.limit with
        | some e, _ => [.limit true e]
        | none, some e => [.limit false e]
        | none, none => [])
      ++ (if decide (s.odo.cp < s.odo.hw) = s.odo.retrace then []
        else [.retrace (decide (s.odo.cp < s.odo.hw)) s.odo.hw])
      ++ (if s.odo.standstill = true then [.standstill false] else [])) := by
  have hretrace : s.followLimit.followRetrace.odo = { s.odo with
      limit := limitOf s.odo.cp, retrace := decide (s.odo.cp < s.odo.hw) } :=
    (eventIf_odo _ _ _).trans (by rw [State.setOdo_odo, followLimit_odo])
  have hsettled := settleKeepAlive_changes s.followLimit.followRetrace.clearStandstill
  unfold State.judgeTick
  rw [changesOnly_same hsettled .link (by simp), clearStandstill_link, hretrace, followRetrace_link, followLimit_odo,
    followLimit_link, told_append, told_append] <;> rfl

theorem tickJudged_spec (s : State) (e : Encoder) (d : Direction) :
    changesOnly [.odo, .seq, .link, .pins] s (s.tickJudged e d)
      ∧ { (s.tickJudged e d).seq with keepAliveTimer := s.seq.keepAliveTimer } = s.seq := by
  have hcounted : changesOnly [.odo, .pins] s ((s.turn e ((s.odo.quadrature e).ticked d)).setOdo (s.tickCounted e d)) :=
    changesOnly_trans (turn_changes s e _) (changesOnly_mono (setOdo_changes _ _) (by simp))
  have hjudged := judgeTick_changes ((s.turn e ((s.odo.quadrature e).ticked d)).setOdo (s.tickCounted e d))
  refine ⟨changesOnly_trans (changesOnly_mono hcounted (by simp)) (changesOnly_mono hjudged (by simp)), ?_⟩
  have hconditions : ∀ u : State, changesOnly [.odo, .link] u u.followLimit.followRetrace.clearStandstill := fun u =>
    changesOnly_trans (changesOnly_trans (followLimit_changes u) (followRetrace_changes _)) (clearStandstill_changes _)
  have hbefore := changesOnly_same (hconditions ((s.turn e ((s.odo.quadrature e).ticked d)).setOdo (s.tickCounted e d)))
    .seq (by simp)
  have hrest := settleKeepAlive_rest
    ((s.turn e ((s.odo.quadrature e).ticked d)).setOdo (s.tickCounted e d)).followLimit.followRetrace.clearStandstill
  rw [hbefore] at hrest
  exact hrest

/-- A tick leaves of the sequencer everything but the keep-alive timer (R40). -/
theorem tickJudged_seq (s : State) (e : Encoder) (d : Direction) :
    (s.tickJudged e d).seq.lastTrigger = s.seq.lastTrigger ∧ (s.tickJudged e d).seq.cycle = s.seq.cycle
      ∧ (s.tickJudged e d).seq.pendingTrigger = s.seq.pendingTrigger ∧ (s.tickJudged e d).seq.ring = s.seq.ring
      ∧ (s.tickJudged e d).seq.overrun = s.seq.overrun := by
  obtain ⟨-, hseq⟩ := tickJudged_spec s e d
  rw [← hseq]
  exact ⟨rfl, rfl, rfl, rfl, rfl⟩

/-- The coordinates, the direction and the conditions of a tick (R5–R7, R9). -/
theorem tickJudged_coordinates (s : State) (e : Encoder) (d : Direction) :
    (s.tickJudged e d).odo.cp = max tickMin (min (s.odo.cp + tickSign d) tickMax)
      ∧ (s.tickJudged e d).odo.hw = max s.odo.hw (s.tickJudged e d).odo.cp
      ∧ (s.tickJudged e d).odo.retrace = decide ((s.tickJudged e d).odo.cp < (s.tickJudged e d).odo.hw)
      ∧ ((s.tickJudged e d).odo.limit = some .upper ↔ (s.tickJudged e d).odo.cp = tickMax)
      ∧ ((s.tickJudged e d).odo.limit = some .lower ↔ (s.tickJudged e d).odo.cp = tickMin) := by
  have hcp : (s.tickJudged e d).odo.cp = (s.tickCounted e d).cp := by rw [tickJudged_odo]
  have hhw : (s.tickJudged e d).odo.hw = (s.tickCounted e d).hw := by rw [tickJudged_odo]
  have hlimit : (s.tickJudged e d).odo.limit = limitOf (s.tickCounted e d).cp := by rw [tickJudged_odo]
  rw [hcp, hhw, hlimit]
  exact ⟨by rw [tickCounted_eq]; rfl, by rw [tickCounted_eq], by rw [tickJudged_odo], limitOf_upper _, limitOf_lower _⟩

/-- What else a tick leaves of the odometry: the counts and the deltas move, the rest stays (R5, R9, R10). -/
theorem tickJudged_rest (s : State) (e : Encoder) (d : Direction) : (s.tickJudged e d).odo = { s.odo with
    enc1 := (s.tickJudged e d).odo.enc1, enc2 := (s.tickJudged e d).odo.enc2
    cp := (s.tickJudged e d).odo.cp, hw := (s.tickJudged e d).odo.hw, direction := d
    intervalCount := s.odo.intervalCount + 1, standstillTimer := 0, standstill := false
    limit := (s.tickJudged e d).odo.limit, retrace := (s.tickJudged e d).odo.retrace
    deltaP := s.odo.deltaP + (if e = .primary then tickSign d else 0)
    deltaS := s.odo.deltaS + (if e = .secondary then tickSign d else 0) } := by
  rw [tickJudged_odo, tickCounted_eq]

theorem encoderTick_sameConfig {s : State} {e : Encoder} {d : Direction} (h : e = s.odo.source) :
    sameConfig s (encoderTick e d s) := by
  unfold encoderTick
  dsimp only
  rw [if_pos h]
  exact SameConfig.trans (SameConfig.trans (SameConfig.trans (SameConfig.setOdo _ _) (SameConfig.setPins _ _))
    (SameConfig.setOdo _ _)) (SameConfig.sourceTick _ d)

/-- The EVENTs of a tick (R6, R7, R9). -/
theorem tickJudged_link (s : State) (e : Encoder) (d : Direction) :
    (s.tickJudged e d).link = s.link.told (s.tickJudged e d).odo.cp
      ((if (s.tickJudged e d).odo.limit = s.odo.limit then []
        else match (s.tickJudged e d).odo.limit, s.odo.limit with
          | some e, _ => [.limit true e]
          | none, some e => [.limit false e]
          | none, none => [])
        ++ (if (s.tickJudged e d).odo.retrace = s.odo.retrace then []
          else [.retrace (s.tickJudged e d).odo.retrace (s.tickJudged e d).odo.hw])
        ++ (if s.odo.standstill = true then [.standstill false] else [])) := by
  have hlink := judgeTick_link ((s.turn e ((s.odo.quadrature e).ticked d)).setOdo (s.tickCounted e d))
  have hcounted : (s.tickCounted e d).limit = s.odo.limit ∧ (s.tickCounted e d).retrace = s.odo.retrace
      ∧ (s.tickCounted e d).standstill = s.odo.standstill := by
    rw [tickCounted_eq]
    exact ⟨rfl, rfl, rfl⟩
  obtain ⟨hlimit, hretrace, hstandstill⟩ := hcounted
  rw [State.setOdo_odo, hlimit, hretrace, hstandstill] at hlink
  rw [tickJudged_odo]
  exact hlink

/-- Settles O4: the tick counted and judged, then what a change of CP starts. -/
theorem sourceTickMovesCp : Obligations.SourceTickMovesCp := by
  intro e d s hheld hsource
  refine answers_free (f := encoderTick e d) rfl hheld ?_
  have hchanges := encoderTick_changes e d s
  have hodo : (encoderTick e d s).odo = (s.tickJudged e d).odo := by
    rw [encoderTick_source hsource]
    split
    · rfl
    · exact cpChanged_odo _
  obtain ⟨hjudged, hseq⟩ := tickJudged_spec s e d
  obtain ⟨hcp, hhw, hretrace, hupper, hlower⟩ := tickJudged_coordinates s e d
  have hrest := tickJudged_rest s e d
  have hstill : (s.tickJudged e d).odo.standstill = false := by rw [hrest]
  obtain ⟨hparams, -, hsteps, hpatterns, hsprays, -, hlead⟩ := encoderTick_sameConfig (d := d) hsource
  have heq := encoderTick_source (d := d) hsource
  have hlink := tickJudged_link s e d
  rw [hodo]
  refine ⟨by rw [hcp]; cases d <;> rfl, hhw, by rw [hrest], by rw [hrest], by rw [hrest], hstill, hretrace, hupper, hlower,
    by rw [hrest], by rw [hrest], by rw [hrest], by rw [hrest], by rw [hrest], by rw [hrest], by rw [hrest],
    hlead, hsprays, hsteps, hpatterns, fun r => ?_, ?_, fun r => ?_, fun hmoved r x rest hx => ?_,
    ⟨s.tickJudged e d, hjudged, rfl, hseq, hlink, heq⟩, hchanges⟩
  · rw [heq]
    split
    case isTrue hsame => rw [if_neg fun h => h.1 hsame, changesOnly_same hjudged .windows (by simp)]
    case isFalse hmoved =>
      rw [cpChanged_windows, changesOnly_same hjudged .run (by simp), changesOnly_same hjudged .windows (by simp)]
      refine (if_congr (and_iff_right hmoved) (congrArg _ ?_) rfl).symm
      unfold State.computedK cellOf
      rw [changesOnly_same hjudged .run (by simp), changesOnly_same hjudged .params (by simp)]
  · obtain ⟨htrigger, hcycle, hpending, hring, hoverrun⟩ := tickJudged_seq s e d
    by_cases hsame : (s.tickJudged e d).odo.cp = s.odo.cp
    · rw [heq, if_pos hsame, if_neg fun h => h.1 hsame]
      exact ⟨htrigger, hcycle, hpending, hring⟩
    · have hchanged := cpChanged_seq (s.tickJudged e d) hstill
      rw [changesOnly_same hjudged .run (by simp), changesOnly_same hjudged .params (by simp), htrigger, hcycle, hpending,
        hoverrun] at hchanged
      rw [heq, if_neg hsame]
      split at hchanged
      case isTrue hdue =>
        rw [if_pos ⟨hsame, hdue⟩]
        exact hchanged
      case isFalse hnot =>
        rw [if_neg fun h => hnot h.2, hchanged]
        exact ⟨htrigger, hcycle, hpending, hring⟩
  · by_cases hsame : (s.tickJudged e d).odo.cp = s.odo.cp
    · rw [heq, if_pos hsame, if_pos hsame, changesOnly_same hjudged .marker (by simp)]
      exact ⟨rfl, rfl⟩
    · obtain ⟨hstate, hvalves⟩ := cpChanged_engines (s.tickJudged e d) r
      rw [changesOnly_same hjudged .marker (by simp)] at hstate hvalves
      rw [heq, if_neg hsame, if_neg hsame]
      exact ⟨hvalves, hstate⟩
  · rw [← hparams]
    rw [heq, if_neg hmoved] at hx ⊢
    exact dueTests_head hx

end Sys2Proof.Machine
end


section
/-! PROOFS. Gap runs, the alert and marker offers. -/
namespace Sys2Proof.Machine

/-! ## Gaps (R139–R141) -/

theorem missingGroups_bit (required : Byte) (x : ClosedCell) (n : Fin 8) :
    (missingGroups required x).getLsbD n.val =
      (required.getLsbD n.val && !(x.groups[n]).covered && !x.muted.getLsbD n.val) := by
  simp only [missingGroups, coveredGroups, BitVec.getLsbD_and, BitVec.getLsbD_not, getLsbD_maskOf, n.isLt, decide_true,
    Bool.true_and]

/-- A cell with missing groups opens a run at length 0 and extends any other (R139). -/
theorem extend_eq (g : GapRun) (c : Int) (missing : Byte) : g.extend c missing =
    { length := g.length + 1, start := if g.length = 0 then c else g.start
      missing := if g.length = 0 then missing else g.missing ||| missing } := by
  unfold GapRun.extend
  split
  case isTrue hzero => rw [hzero]
  case isFalse => rfl

theorem evalGap_ends {s : State} {r : Rail} {c : Int} (h : ((s.windows.get r).closedAt c).drain = true
    ∨ missingGroups (s.params.required.get r) ((s.windows.get r).closedAt c) = 0) : s.evalGap r c = s.endGap r :=
  if_pos (by simpa using h)

theorem evalGap_extends {s : State} {r : Rail} {c : Int} (h : ¬ (((s.windows.get r).closedAt c).drain = true
    ∨ missingGroups (s.params.required.get r) ((s.windows.get r).closedAt c) = 0)) :
    s.evalGap r c =
      let g := (s.eval.gaps.get r).extend c (missingGroups (s.params.required.get r) ((s.windows.get r).closedAt c))
      if g.length = 1024 then (s.setGapRun r { g with length := 0 }).issueGap r g true else s.setGapRun r g :=
  if_neg (by simpa using h)

/-- A gap run is the only part of the evaluator that its judgement changes. -/
theorem endGap_eval (s : State) (r : Rail) :
    (s.endGap r).eval = (s.setGapRun r { s.eval.gaps.get r with length := 0 }).eval := by
  unfold State.endGap
  dsimp only
  split
  · rfl
  · rfl

/-- What the judgement of a cell leaves of the evaluator: one gap run (R139–R141). -/
theorem evalGap_eval (s : State) (r : Rail) (c : Int) : ∃ g, (s.evalGap r c).eval = (s.setGapRun r g).eval := by
  by_cases hends : ((s.windows.get r).closedAt c).drain = true
      ∨ missingGroups (s.params.required.get r) ((s.windows.get r).closedAt c) = 0
  · rw [evalGap_ends hends]
    exact ⟨_, endGap_eval s r⟩
  · rw [evalGap_extends hends]
    dsimp only
    split
    · exact ⟨_, rfl⟩
    · exact ⟨_, rfl⟩

/-- A gap judgement reaches the evaluator and, by a GAP, the report lanes (R139, R141). -/
theorem evalGap_reaches (s : State) (r : Rail) (c : Int) : changesOnly [.eval, .link] s (s.evalGap r c) := by
  have hset : ∀ g : GapRun, changesOnly [.eval, .link] s (s.setGapRun r g) := fun g =>
    changesOnly_mono (setEval_changes s _) (by simp)
  have hissue : ∀ (g g' : GapRun) (capped : Bool), changesOnly [.eval, .link] s ((s.setGapRun r g).issueGap r g' capped) :=
    fun g g' capped => changesOnly_trans (hset g) (changesOnly_mono (emit_changes _ _) (by simp))
  by_cases hends : ((s.windows.get r).closedAt c).drain = true
      ∨ missingGroups (s.params.required.get r) ((s.windows.get r).closedAt c) = 0
  · rw [evalGap_ends hends]
    unfold State.endGap
    dsimp only
    split
    · exact hissue _ _ _
    · exact hset _
  · rw [evalGap_extends hends]
    dsimp only
    split
    · exact hissue _ _ _
    · exact hset _

/-- Settles O25: a cell that ends the run, that caps it, and that extends it. -/
theorem gapRunFollowsCells : Obligations.GapRunFollowsCells := by
  intro r c s
  obtain ⟨g, heval⟩ := evalGap_eval s r c
  refine ⟨missingGroups_bit _ _, ?_, rfl, fun q hq => ?_, ?_, ?_, evalGap_reaches s r c⟩
  · split
    case isTrue hends =>
      rw [evalGap_ends hends, endGap_eval]
      exact ⟨congrArg GapRun.length (PerRail.get_set_same _ _ _), rfl⟩
    case isFalse hgoes =>
      rw [evalGap_extends hgoes, extend_eq]
      split
      case isTrue hcap =>
        rw [if_pos hcap]
        exact ⟨congrArg GapRun.length (PerRail.get_set_same _ _ _), rfl⟩
      case isFalse hshort =>
        rw [if_neg hshort]
        exact ⟨PerRail.get_set_same _ _ _, rfl⟩
  · rw [heval]
    exact PerRail.get_set_ne _ hq _
  · rw [heval]
    rfl
  · rw [heval]
    rfl

/-! ## The alert and the marker offer (R137, R147) -/

/-- An offer merges with a tail of its spray pattern at most MERGE_TICKS below it (R147). -/
theorem merges_iff (q : List MarkerEntry) (target : Int) (spray : Fin 7) (n : Nat) : merges q target spray n = true ↔
    ∃ e, q.getLast? = some e ∧ e.spray = spray ∧ e.target ≤ target ∧ target ≤ e.target + n := by
  unfold merges
  cases q.getLast? with
  | none => simp
  | some e => simp [and_assoc]

theorem takeOffer_queued {s : State} {r : Rail} {target : Int} {spray : Fin 7} (cls : Fin 16)
    (h : s.offerVerdict r target spray = .queued) : s.takeOffer r target spray cls =
      s.setQueue r (insertEntry (offeredEntry target spray cls) (s.marker.engines.get r).queue) := by
  unfold State.takeOffer
  rw [h]

theorem takeOffer_kept {s : State} {r : Rail} {target : Int} {spray : Fin 7} (cls : Fin 16)
    (h : s.offerVerdict r target spray ≠ .queued) : s.takeOffer r target spray cls = s := by
  unfold State.takeOffer
  split
  case h_1 hqueued => exact absurd hqueued h
  case h_2 => rfl

/-- Settles O26: the alert by `issueFinding_eval`, the offer by its verdict and its place in the queue. -/
theorem findingAlertsAndOffers : Obligations.FindingAlertsAndOffers := by
  refine ⟨fun r p run capped s => ?_, fun r target spray cls s => ⟨?_, fun hqueued => ?_, takeOffer_kept cls⟩⟩
  · rw [issueFinding_eval]
    rfl
  · exact if_congr (merges_iff _ _ _ _) rfl rfl
  · rw [takeOffer_queued cls hqueued]
    obtain ⟨u, v, hsplit, hinsert, hbelow, habove⟩ :=
      insertEntry_split (offeredEntry target spray cls) (s.marker.engines.get r).queue
    refine ⟨u, v, hsplit, Eq.trans ?_ hinsert, hbelow, habove⟩
    exact congrArg Engine.queue (PerRail.get_set_same _ _ _)

end Sys2Proof.Machine
end


section
/-! PROOFS. Pattern runs: the tests of a cell, what a run takes in, and its FINDING. -/
namespace Sys2Proof.Machine

/-! ## Sums over the groups of a cell (R131) -/

theorem le_foldl_max (l : List Nat) (a : Nat) : a ≤ l.foldl max a ∧ ∀ x ∈ l, x ≤ l.foldl max a := by
  induction l generalizing a with
  | nil => exact ⟨le_refl a, fun x hx => absurd hx (by simp)⟩
  | cons y ys ih =>
    obtain ⟨hstart, hall⟩ := ih (max a y)
    refine ⟨(le_max_left a y).trans hstart, fun x hx => ?_⟩
    rcases List.mem_cons.1 hx with rfl | hx
    · exact (le_max_right a x).trans hstart
    · exact hall x hx

theorem mem_eight (g : Fin 8) : g ∈ eight := (by decide : ∀ g : Fin 8, g ∈ eight) g

theorem peak_le_topPeak (gs : CellGroups) (g : Fin 8) : (gs[g]).peak ≤ topPeak gs := by
  obtain ⟨-, hall⟩ := le_foldl_max (eight.map fun g => (gs[g]).peak) 0
  exact hall _ (List.mem_map_of_mem (f := fun g => (gs[g]).peak) (mem_eight g))

/-- The bands of the groups with the greatest peak (R131). -/
theorem topBands_bit (gs : CellGroups) (b : Nat) : (topBands gs).getLsbD b = true ↔
    ∃ g : Fin 8, (gs[g]).peak = topPeak gs ∧ (gs[g]).bands.getLsbD b = true := by
  have hfold : ∀ (l : List (Fin 8)) (m : Byte),
      (l.foldl (fun m g => if (gs[g]).peak = topPeak gs then m ||| (gs[g]).bands else m) m).getLsbD b = true ↔
        m.getLsbD b = true ∨ ∃ g ∈ l, (gs[g]).peak = topPeak gs ∧ (gs[g]).bands.getLsbD b = true := by
    intro l
    induction l with
    | nil => simp
    | cons g l ih =>
      intro m
      rw [List.foldl_cons, ih]
      by_cases htop : (gs[g]).peak = topPeak gs
      · rw [if_pos htop, BitVec.getLsbD_or, Bool.or_eq_true, or_assoc]
        refine or_congr_right ?_
        simp only [List.mem_cons, exists_eq_or_imp]
        exact or_congr_left (and_iff_right htop).symm
      · rw [if_neg htop]
        refine or_congr_right ?_
        simp only [List.mem_cons, exists_eq_or_imp]
        exact (or_iff_right fun h => htop h.1).symm
  rw [topBands, hfold]
  simp [mem_eight]

/-- The highest band of a mask is in it, and no band of it lies higher. -/
theorem highestBand_spec (m : Byte) : (∀ b : Fin 8, m.getLsbD b.val = true → b.val ≤ highestBand m)
    ∧ (highestBand m = 0 ∨ m.getLsbD (highestBand m) = true) := by
  have hfold : ∀ l : List (Fin 8), l.Pairwise (· < ·) →
      (∀ b ∈ l, m.getLsbD b.val = true → b.val ≤ l.foldl (fun b g => if m.getLsbD g.val then g.val else b) 0)
        ∧ (l.foldl (fun b g => if m.getLsbD g.val then g.val else b) 0 = 0
          ∨ m.getLsbD (l.foldl (fun b g => if m.getLsbD g.val then g.val else b) 0) = true) := by
    intro l
    induction l using List.reverseRecOn with
    | nil => exact fun _ => ⟨fun b hb => absurd hb (by simp), .inl rfl⟩
    | append_singleton l g ih =>
      intro hsorted
      obtain ⟨hl, -, hlast⟩ := List.pairwise_append.1 hsorted
      obtain ⟨hall, hin⟩ := ih hl
      rw [List.foldl_append, List.foldl_cons, List.foldl_nil]
      by_cases hg : m.getLsbD g.val = true
      · rw [if_pos hg]
        refine ⟨fun b hb _ => ?_, .inr hg⟩
        rcases List.mem_append.1 hb with hb | hb
        · exact le_of_lt (hlast b hb g (List.mem_singleton_self g))
        · rw [List.mem_singleton.1 hb]
      · rw [if_neg hg]
        refine ⟨fun b hb hbit => ?_, hin⟩
        rcases List.mem_append.1 hb with hb | hb
        · exact hall b hb hbit
        · rw [List.mem_singleton.1 hb] at hbit
          exact absurd hbit hg
  obtain ⟨hall, hin⟩ := hfold eight (by decide)
  exact ⟨fun b => hall b (mem_eight b), hin⟩

/-! ## What a run takes in (R131) -/

/-- A run that a matching cell opens or goes on with (R131 step 1). -/
def PatternRun.opened (run : PatternRun) (c : Int) : PatternRun :=
  if run.length = 0 then { PatternRun.closed with start := c } else run

theorem opened_spec (old : PatternRun) (c : Int) : (old.opened c).length = old.length
    ∧ (old.opened c).start = (if old.length = 0 then c else old.start)
    ∧ (old.opened c).hitTotal = (if old.length = 0 then 0 else old.hitTotal)
    ∧ (old.opened c).peak = (if old.length = 0 then 0 else old.peak)
    ∧ (old.opened c).peakBand = (if old.length = 0 then 0 else old.peakBand)
    ∧ (old.opened c).groupsSeen = (if old.length = 0 then 0 else old.groupsSeen) := by
  unfold PatternRun.opened
  by_cases hzero : old.length = 0
  · rw [if_pos hzero, if_pos hzero, if_pos hzero, if_pos hzero, if_pos hzero, if_pos hzero]
    exact ⟨hzero.symm, rfl, rfl, rfl, rfl, rfl⟩
  · rw [if_neg hzero, if_neg hzero, if_neg hzero, if_neg hzero, if_neg hzero, if_neg hzero]
    exact ⟨rfl, rfl, rfl, rfl, rfl, rfl⟩

theorem take_groupsSeen (old : PatternRun) (c : Int) (gs : CellGroups) (g : Fin 8) :
    (old.take c gs).groupsSeen.getLsbD g.val =
      ((if old.length = 0 then false else old.groupsSeen.getLsbD g.val) || decide (0 < (gs[g]).hits)) := by
  obtain ⟨-, -, -, -, -, hgroups⟩ := opened_spec old c
  have htaken : (old.take c gs).groupsSeen = (old.opened c).groupsSeen ||| hitGroups gs := rfl
  rw [htaken, hgroups, BitVec.getLsbD_or, hitGroups, getLsbD_maskOf]
  split
  · exact congrArg (· || _) BitVec.getLsbD_zero
  · rfl

theorem take_peakBand_eq (old : PatternRun) (c : Int) (gs : CellGroups) : (old.take c gs).peakBand =
    if (old.opened c).peak < topPeak gs then highestBand (topBands gs) else (old.opened c).peakBand := by
  unfold PatternRun.take PatternRun.opened
  dsimp only

/-- Where a cell raises the peak, the band of the peak is the highest of the groups that hold it (R131). -/
theorem take_peakBand (old : PatternRun) (c : Int) (gs : CellGroups) :
    if (if old.length = 0 then 0 else old.peak) < topPeak gs then
      (∀ (g : Fin 8) (b : Fin 8), (gs[g]).peak = topPeak gs → (gs[g]).bands.getLsbD b.val = true →
        b.val ≤ (old.take c gs).peakBand)
      ∧ ((old.take c gs).peakBand = 0 ∨ ∃ g : Fin 8, (gs[g]).peak = topPeak gs
          ∧ (gs[g]).bands.getLsbD (old.take c gs).peakBand = true)
    else (old.take c gs).peakBand = if old.length = 0 then 0 else old.peakBand := by
  have htaken := take_peakBand_eq old c gs
  have htop := topBands_bit gs
  have hspec := highestBand_spec (topBands gs)
  have hopened := opened_spec old c
  generalize topPeak gs = top at htaken htop ⊢
  generalize highestBand (topBands gs) = highest at htaken hspec
  obtain ⟨-, -, -, hpeak, hband, -⟩ := hopened
  obtain ⟨hall, hin⟩ := hspec
  rw [htaken, hpeak, hband]
  by_cases hraised : (if old.length = 0 then 0 else old.peak) < top
  · rw [if_pos hraised, if_pos hraised]
    exact ⟨fun g b hg hbit => hall b ((htop _).2 ⟨g, hg, hbit⟩), hin.imp_right (htop _).1⟩
  · rw [if_neg hraised, if_neg hraised]

/-! ## Terms, patterns and the cells they read (R93, R128–R130) -/

theorem masks_meet_iff (x y : Byte) : (x &&& y != 0) = true ↔
    ∃ b : Fin 8, x.getLsbD b.val = true ∧ y.getLsbD b.val = true := by
  rw [bne_iff_ne, Ne, ← not_forall_not, not_iff_not]
  refine ⟨fun h b ⟨hx, hy⟩ => ?_, fun h => BitVec.eq_of_getLsbD_eq fun i hi => ?_⟩
  · have hbit := congrArg (fun m : Byte => m.getLsbD b.val) h
    simp only [BitVec.getLsbD_and, hx, hy] at hbit
    exact Bool.noConfusion (hbit.trans BitVec.getLsbD_zero)
  · have hbit := h ⟨i, hi⟩
    refine Eq.trans ?_ BitVec.getLsbD_zero.symm
    rw [BitVec.getLsbD_and]
    exact Bool.eq_false_iff.2 fun hboth => hbit (Bool.and_eq_true_iff.1 hboth)

/-- What satisfies a term of either kind (R129). -/
theorem satisfied_flaw {u : Term} (h : u.kind = .flaw) (x : GroupRecord) : u.satisfied x = true ↔
    u.minCount ≤ x.hits ∧ (∃ b : Fin 8, x.bands.getLsbD b.val = true ∧ u.bands.getLsbD b.val = true)
      ∧ u.minAmplitude ≤ x.peak := by
  unfold Term.satisfied
  rw [h]
  simp only [Bool.and_eq_true, decide_eq_true_eq, masks_meet_iff, and_assoc]

theorem satisfied_drop {u : Term} (h : u.kind = .drop) (x : GroupRecord) : u.satisfied x = true ↔ u.minCount ≤ x.drops := by
  unfold Term.satisfied
  rw [h]
  exact decide_eq_true_iff

/-- A pattern matches where each term is satisfied within the spread (R130). -/
theorem matchesAt_iff (p : Pattern) (w : Window) (c : Int) : p.matchesAt w c = true ↔ ∀ u ∈ p.terms, ∃ j : Int,
    c - p.spread ≤ j ∧ j ≤ c + p.spread ∧ u.satisfied ((w.closedAt j).groups)[u.group] = true := by
  unfold Pattern.matchesAt
  rw [List.all_eq_true]
  refine forall_congr' fun u => forall_congr' fun _ => ?_
  rw [List.any_eq_true]
  constructor
  · rintro ⟨i, hi, hsatisfied⟩
    have hlt := List.mem_range.1 hi
    exact ⟨c - p.spread + i, by omega, by omega, hsatisfied⟩
  · rintro ⟨j, hlo, hhi, hsatisfied⟩
    refine ⟨(j - (c - p.spread)).toNat, List.mem_range.2 (by omega), ?_⟩
    rwa [show c - (p.spread : Int) + ((j - (c - p.spread)).toNat : Int) = j by omega]

theorem closedAt_empty {w : Window} {j : Int} (h : j < w.opening ∨ ∀ x ∈ w.tail, x.index ≠ j) :
    w.closedAt j = .emptyAt j := by
  unfold Window.closedAt
  by_cases hbelow : j < w.opening
  · exact if_pos hbelow
  · rw [if_neg hbelow, List.find?_eq_none.2 fun x hx => by simpa using h.resolve_left hbelow x hx]
    rfl

theorem closedAt_mem {w : Window} {x : ClosedCell} (hx : x ∈ w.tail) (hopen : w.opening ≤ x.index)
    (honly : ∀ y ∈ w.tail, y.index = x.index → y = x) : w.closedAt x.index = x := by
  unfold Window.closedAt
  rw [if_neg (not_lt.2 hopen)]
  cases hfind : w.tail.find? (fun y => decide (y.index = x.index)) with
  | none => exact absurd (decide_eq_true rfl) (List.find?_eq_none.1 hfind x hx)
  | some y =>
    exact honly y (List.mem_of_find?_eq_some hfind) (by simpa using List.find?_some hfind)

/-- The other numbers of a run that a matching cell is taken into (R131). -/
theorem take_counts (old : PatternRun) (c : Int) (gs : CellGroups) : (old.take c gs).length = old.length + 1
    ∧ (old.take c gs).start = (if old.length = 0 then c else old.start)
    ∧ (old.take c gs).hitTotal = min ((if old.length = 0 then 0 else old.hitTotal) + hitSum gs) 65535
    ∧ (old.take c gs).peak = max (if old.length = 0 then 0 else old.peak) (topPeak gs) := by
  obtain ⟨hlength, hstart, htotal, hpeak, -⟩ := opened_spec old c
  rw [← hstart, ← htotal, ← hpeak, ← hlength]
  unfold PatternRun.take PatternRun.opened
  dsimp only
  exact ⟨rfl, rfl, rfl, rfl⟩

/-- The longer run, and what else holds of it. -/
theorem take_exists (old : PatternRun) (c : Int) (gs : CellGroups) (capped longer : PatternRun → Prop)
    (h : if (old.take c gs).length = 64 then capped (old.take c gs) else longer (old.take c gs)) :
    ∃ run : PatternRun, run.length = old.length + 1
      ∧ run.start = (if old.length = 0 then c else old.start)
      ∧ run.hitTotal = min ((if old.length = 0 then 0 else old.hitTotal) + hitSum gs) 65535
      ∧ run.peak = max (if old.length = 0 then 0 else old.peak) (topPeak gs)
      ∧ (∀ g : Fin 8, (gs[g]).peak ≤ topPeak gs)
      ∧ (if (if old.length = 0 then 0 else old.peak) < topPeak gs then
          (∀ (g : Fin 8) (b : Fin 8), (gs[g]).peak = topPeak gs → (gs[g]).bands.getLsbD b.val = true →
            b.val ≤ run.peakBand)
          ∧ (run.peakBand = 0 ∨ ∃ g : Fin 8, (gs[g]).peak = topPeak gs ∧ (gs[g]).bands.getLsbD run.peakBand = true)
        else run.peakBand = if old.length = 0 then 0 else old.peakBand)
      ∧ (∀ g : Fin 8, run.groupsSeen.getLsbD g.val =
          ((if old.length = 0 then false else old.groupsSeen.getLsbD g.val) || decide (0 < (gs[g]).hits)))
      ∧ (if old.length + 1 = 64 then capped run else longer run) := by
  obtain ⟨hlength, hstart, htotal, hpeak⟩ := take_counts old c gs
  have hle := peak_le_topPeak gs
  have hband := take_peakBand old c gs
  rw [hlength] at h
  generalize topPeak gs = top at hpeak hle hband ⊢
  exact ⟨old.take c gs, hlength, hstart, htotal, hpeak, hle, hband, take_groupsSeen old c gs, h⟩

/-! ## The FINDING of a run (R136) -/

/-- An offer reaches the marker alone, an alert update the evaluator (R137, R147). -/
theorem markerOffer_reaches (s : State) (r : Rail) (spray : Option (Fin 7)) (cls : Fin 16) (tick : Int) :
    changesOnly [.marker] s (s.markerOffer r spray cls tick) := by
  cases spray with
  | none => exact changesOnly_refl _ s
  | some n => exact takeOffer_changes s r tick n cls

theorem updateAlert_reaches (s : State) (urgent : Bool) (r : Rail) (cls : Fin 16) (tick : Int) :
    changesOnly [.eval] s (s.updateAlert urgent r cls tick) := by
  unfold State.updateAlert
  split
  · exact setEval_changes s _
  · exact changesOnly_refl _ s

theorem updateAlert_alert (s : State) (urgent : Bool) (r : Rail) (cls : Fin 16) (tick : Int) :
    (s.updateAlert urgent r cls tick).eval.alert =
      if urgent = true then { start := tick, rail := r, cls := cls, count := s.eval.alert.count + 1 } else s.eval.alert := by
  unfold State.updateAlert
  split
  · rfl
  · rfl

/-- A state with a FINDING's offer made and its alert updated (R136, R137, R147). -/
def State.findingMade (s : State) (f : Finding) : State :=
  (s.markerOffer f.rail f.spray f.cls f.startTick).updateAlert f.urgent f.rail f.cls f.startTick

/-- A FINDING is offered after its marker offer and its alert update (R136). -/
theorem findingMade_spec (s : State) (f : Finding) : changesOnly [.eval, .marker] s (s.findingMade f)
    ∧ (s.findingMade f).eval.alert = (if f.urgent = true
        then { start := f.startTick, rail := f.rail, cls := f.cls, count := s.eval.alert.count + 1 } else s.eval.alert)
    ∧ (s.findingMade f).marker = (s.markerOffer f.rail f.spray f.cls f.startTick).marker := by
  refine ⟨changesOnly_trans (changesOnly_mono (markerOffer_reaches _ _ _ _ _) (by simp))
    (changesOnly_mono (updateAlert_reaches _ _ _ _ _) (by simp)), ?_,
    changesOnly_same (updateAlert_reaches _ _ _ _ _) .marker (by simp)⟩
  unfold State.findingMade
  rw [updateAlert_alert, markerOffer_eval]

theorem issueFinding_eq (s : State) (r : Rail) (p : Fin 32) (run : PatternRun) (capped : Bool) :
    s.issueFinding r p run capped =
      ((s.findingMade (s.findingOf r p run capped)).emit (.finding (s.findingOf r p run capped))).dueTest r := rfl

/-- The disposition of a FINDING and its offer by its spray pattern (R136). -/
theorem findingMade_disposition (s : State) (r : Rail) (spray : Option (Fin 7)) (cls : Fin 16) (tick : Int) :
    match spray with
    | none => s.disposition r spray tick = .none ∧ (s.markerOffer r spray cls tick).marker = s.marker
    | some n => s.disposition r spray tick = s.offerVerdict r tick n
        ∧ (s.markerOffer r spray cls tick).marker = (s.takeOffer r tick n cls).marker := by
  cases spray with
  | none => exact ⟨rfl, rfl⟩
  | some n => exact ⟨rfl, rfl⟩

/-! ## One pattern's part of an evaluation (R131–R133) -/

section
variable {s : State} {r : Rail} {c : Int} {p : Fin 32}

/-- Whether a pattern is evaluated on a rail (R128). -/
def State.evaluates (s : State) (r : Rail) (p : Fin 32) : Prop :=
  (s.eval.patterns[p]).enabled = true ∧ holdsRail (s.eval.patterns[p]).rails r = true

theorem evalPattern_skips (h : ¬ s.evaluates r p) : s.evalPattern r c p = s :=
  if_neg (by rwa [Bool.and_eq_true])

theorem evalPattern_ends (h : s.evaluates r p) (hmiss : ¬ (s.eval.patterns[p]).matchesAt (s.windows.get r) c = true) :
    s.evalPattern r c p = s.endRunOf r p :=
  (if_pos (Bool.and_eq_true_iff.2 h)).trans (if_neg hmiss)

theorem evalPattern_takes (h : s.evaluates r p) (hmatch : (s.eval.patterns[p]).matchesAt (s.windows.get r) c = true) :
    s.evalPattern r c p =
      let run := ((s.eval.runs.get r)[p]).take c ((s.windows.get r).closedAt c).groups
      if run.length = 64 then (s.setPatternRun r p .closed).issueFinding r p run true else s.setPatternRun r p run :=
  (if_pos (Bool.and_eq_true_iff.2 h)).trans (if_pos hmatch)

end

theorem setPatternRun_runs (s : State) (r : Rail) (p : Fin 32) (run : PatternRun) :
    ((s.setPatternRun r p run).eval.runs.get r)[p] = run
      ∧ ∀ q : Fin 32, q ≠ p → ((s.setPatternRun r p run).eval.runs.get r)[q] = (s.eval.runs.get r)[q] := by
  have hruns : (s.setPatternRun r p run).eval.runs.get r = (s.eval.runs.get r).set p run := PerRail.get_set_same _ _ _
  rw [hruns]
  exact ⟨Vector.getElem_set_self _, fun q hq => Vector.getElem_set_ne p.isLt q.isLt fun h => hq (Fin.ext h.symm)⟩

/-- A FINDING leaves the runs (R136). -/
theorem issueFinding_runs (s : State) (r : Rail) (p : Fin 32) (run : PatternRun) (capped : Bool) :
    (s.issueFinding r p run capped).eval.runs = s.eval.runs := by
  rw [issueFinding_eval]

/-- The end of a run, or its being capped, closes it and leaves every other run (R132, R133). -/
theorem endRunOf_spec (s : State) (r : Rail) (p : Fin 32) : ((s.endRunOf r p).eval.runs.get r)[p].length = 0
    ∧ ∀ q : Fin 32, q ≠ p → ((s.endRunOf r p).eval.runs.get r)[q] = (s.eval.runs.get r)[q] := by
  obtain ⟨hclosed, hothers⟩ := setPatternRun_runs s r p .closed
  have hruns : (s.endRunOf r p).eval.runs = (s.setPatternRun r p .closed).eval.runs := by
    obtain ⟨hruns, -⟩ := endRunOf_runs s r p
    exact hruns
  rw [hruns]
  exact ⟨congrArg PatternRun.length hclosed, hothers⟩

/-- A matching cell is taken into the run, and the sixty-fourth closes it with a FINDING (R131, R133). -/
theorem evalPattern_takes_runs {s : State} {r : Rail} {c : Int} {p : Fin 32} (h : s.evaluates r p)
    (hmatch : (s.eval.patterns[p]).matchesAt (s.windows.get r) c = true) :
    (∀ q : Fin 32, q ≠ p → ((s.evalPattern r c p).eval.runs.get r)[q] = (s.eval.runs.get r)[q])
      ∧ (let run := ((s.eval.runs.get r)[p]).take c ((s.windows.get r).closedAt c).groups
        if run.length = 64 then s.evalPattern r c p = (s.setPatternRun r p .closed).issueFinding r p run true
            ∧ (((s.evalPattern r c p).eval.runs.get r)[p]).length = 0
          else s.evalPattern r c p = s.setPatternRun r p run ∧ ((s.evalPattern r c p).eval.runs.get r)[p] = run) := by
  rw [evalPattern_takes h hmatch]
  dsimp only
  split
  · obtain ⟨hclosed, hothers⟩ := setPatternRun_runs s r p .closed
    have hruns := issueFinding_runs (s.setPatternRun r p .closed) r p
      (((s.eval.runs.get r)[p]).take c ((s.windows.get r).closedAt c).groups) true
    exact ⟨fun q hq => (congrArg (fun rs : PerRail (Vector PatternRun 32) => (rs.get r)[q]) hruns).trans (hothers q hq), rfl,
      (congrArg (fun rs : PerRail (Vector PatternRun 32) => ((rs.get r)[p]).length) hruns).trans
        (congrArg PatternRun.length hclosed)⟩
  · obtain ⟨hset, hothers⟩ := setPatternRun_runs s r p
      (((s.eval.runs.get r)[p]).take c ((s.windows.get r).closedAt c).groups)
    exact ⟨hothers, rfl, hset⟩

/-- Settles O24: the run after a cell, the tests of a cell, and the FINDING of a run. -/
theorem patternRunFollowsCells : Obligations.PatternRunFollowsCells := by
  intro r c p s
  refine ⟨?_, rfl, ?_, fun j => closedAt_empty, fun x => closedAt_mem, fun run capped => ?_⟩
  · split
    case isFalse hskips => exact evalPattern_skips hskips
    case isTrue hevaluates =>
      have hchanges := evalPattern_changes s r c p
      split
      case isTrue hmatch =>
        obtain ⟨hothers, hcases⟩ := evalPattern_takes_runs hevaluates hmatch
        exact ⟨hothers, hchanges, take_exists _ c _ _ _ hcases⟩
      case isFalse hmiss =>
        obtain ⟨hclosed, hothers⟩ := endRunOf_spec s r p
        rw [evalPattern_ends hevaluates hmiss] at hchanges ⊢
        exact ⟨hothers, hchanges, rfl, hclosed⟩
  · rw [matchesAt_iff]
    refine forall_congr' fun u => forall_congr' fun _ => exists_congr fun j =>
      and_congr_right fun _ => and_congr_right fun _ => ?_
    split
    case h_1 hflaw => exact satisfied_flaw hflaw _
    case h_2 hdrop => exact satisfied_drop hdrop _
  · obtain ⟨hchanges, halert, hmarker⟩ := findingMade_spec s (s.findingOf r p run capped)
    have hdisposition := findingMade_disposition s r (s.eval.patterns[p]).spray (s.eval.patterns[p]).cls
      (s.startTick run.start)
    refine ⟨_, s.findingOf r p run capped, issueFinding_eq s r p run capped, hchanges, rfl, rfl, rfl, rfl, rfl, rfl, rfl,
      rfl, rfl, rfl, rfl, rfl, rfl, rfl, rfl, rfl, halert, ?_⟩
    rw [hmarker]
    exact hdisposition

end Sys2Proof.Machine
end


section
/-! PROOFS. The due test and the head of a marker queue. -/
namespace Sys2Proof.Machine

/-! ## The due test of a rail (R149, R152) -/

/-- A head that DROP removes: NORMAL and later than LATE_TOL (R152). -/
def State.droppable (s : State) (r : Rail) (e : MarkerEntry) : Prop :=
  s.params.latePolicy.get r = .drop ∧ e.arming = .normal ∧ (s.params.lateTol : Int) < s.past r e

theorem droppable_iff (s : State) (r : Rail) (e : MarkerEntry) : (s.isDue r (s.latch r e)
    && decide (s.params.latePolicy.get r = .drop) && decide ((s.params.lateTol : Int) < s.lateness r e)) = true ↔
      s.droppable r e := by
  unfold State.droppable
  cases harming : e.arming with
  | normal =>
    rw [latch_normal s r harming]
    simp only [State.isDue, State.lateness, harming, Bool.and_eq_true, decide_eq_true_eq, true_and]
    constructor
    · rintro ⟨⟨-, hdrop⟩, hlate⟩
      exact ⟨hdrop, hlate⟩
    · rintro ⟨hdrop, hlate⟩
      exact ⟨⟨by omega, hdrop⟩, hlate⟩
  | either =>
    have hnone : ¬ (s.params.lateTol : Int) < 0 := by omega
    simp [State.lateness, harming, hnone]

/-- The MARK record of a head that DROP removes (R152, R161). -/
def State.lateMark (s : State) (r : Rail) (e : MarkerEntry) : Record :=
  .mark {
    runNumber := s.run.runNumber, rail := r, outcome := .droppedLate, origin := e.origin, target := e.target
    spray := e.spray, cls := e.cls, arming := .normal, g := s.gun r, lateness := s.past r e, cp := s.odo.cp }

theorem lateMark_of_normal (s : State) (r : Rail) {e : MarkerEntry} (h : e.arming = .normal) :
    s.markRecord r .droppedLate e (s.lateness r e) = s.lateMark r e := by
  simp only [State.markRecord, State.lateMark, State.lateness, h]

/-- A queue with its head latched (R149). -/
def State.latched (s : State) (r : Rail) : List MarkerEntry → List MarkerEntry
  | [] => []
  | e :: rest => s.latch r e :: rest

theorem foldl_emit_setQueue (r : Rail) (f : MarkerEntry → Record) (q : List MarkerEntry) (es : List MarkerEntry) (s : State) :
    es.foldl (fun u e => u.emit (f e)) (s.setQueue r q) = (es.foldl (fun u e => u.emit (f e)) s).setQueue r q := by
  induction es generalizing s with
  | nil => rfl
  | cons e es ih => rw [List.foldl_cons, List.foldl_cons, setQueue_emit, ih]

theorem dueTestLoop_spec (r : Rail) (n : Nat) (s : State) (hn : (s.marker.engines.get r).queue.length < n) :
    ∃ dropped kept, (s.marker.engines.get r).queue = dropped ++ kept ∧ (∀ e ∈ dropped, s.droppable r e)
      ∧ (∀ e rest, kept = e :: rest → ¬ s.droppable r e)
      ∧ dueTestLoop r n s = (dropped.foldl (fun u e => u.emit (s.lateMark r e)) s).setQueue r (s.latched r kept) := by
  induction n generalizing s with
  | zero => exact absurd hn (Nat.not_lt_zero _)
  | succ n ih =>
    cases hqueue : (s.marker.engines.get r).queue with
    | nil =>
      refine ⟨[], [], rfl, fun e he => absurd he (by simp), fun e rest h => absurd h (by simp), ?_⟩
      unfold dueTestLoop
      rw [hqueue]
      exact (setQueue_self s r [] hqueue).symm
    | cons e rest =>
      unfold dueTestLoop
      rw [hqueue]
      dsimp only
      by_cases hdrop : s.droppable r e
      · have hrest : (((s.setQueue r rest).emit (s.lateMark r e)).marker.engines.get r).queue = rest :=
          congrArg Engine.queue (PerRail.get_set_same _ _ _)
        rw [hqueue, List.length_cons] at hn
        obtain ⟨dropped, kept, hsplit, hall, hhead, hloop⟩ := ih ((s.setQueue r rest).emit (s.lateMark r e))
          (by rw [hrest]; exact Nat.lt_of_succ_lt_succ hn)
        refine ⟨e :: dropped, kept, congrArg (e :: ·) (hrest.symm.trans hsplit), fun x hx => ?_, hhead, ?_⟩
        · rcases List.mem_cons.1 hx with rfl | hx
          · exact hdrop
          · exact hall x hx
        · rw [if_pos ((droppable_iff s r e).2 hdrop), lateMark_of_normal s r hdrop.2.1, hloop, setQueue_emit]
          refine (congrArg (fun u : State => u.setQueue r _) (foldl_emit_setQueue r _ rest dropped _)).trans ?_
          exact setQueue_setQueue _ r rest _
      · rw [if_neg (mt (droppable_iff s r e).1 hdrop)]
        refine ⟨[], e :: rest, rfl, fun x hx => absurd hx (by simp), fun x xs hx => ?_, rfl⟩
        rw [← (List.cons.inj hx).1]
        exact hdrop

/-! ## The IDLE engine and its head (R150–R153) -/

theorem headTaken_due {r : Rail} {s : State} {e : MarkerEntry} {rest : List MarkerEntry}
    (hidle : (s.marker.engines.get r).state = .idle) (hqueue : (s.marker.engines.get r).queue = e :: rest)
    (hdue : s.isDue r e = true) : headTaken r s =
      if s.lateness r e ≤ s.params.lateTol then
        (((s.setQueue r rest).beginPullin r (s.markOf e) 1).emit (s.markRecord r .fired e (s.lateness r e))).dueTest r
      else if s.params.latePolicy.get r = .halt then
        (s.enter r .halted .off).emit (s.markRecord r .halted e (s.lateness r e))
      else ((s.setQueue r rest).emit (s.markRecord r .droppedLate e (s.lateness r e))).dueTest r := by
  unfold headTaken
  rw [hidle, hqueue]
  dsimp only
  rw [if_pos hdue]
  cases s.params.latePolicy.get r
  all_goals rfl

theorem headTaken_waits {r : Rail} {s : State} {e : MarkerEntry} {rest : List MarkerEntry}
    (hqueue : (s.marker.engines.get r).queue = e :: rest)
    (hnot : ¬ ((s.marker.engines.get r).state = .idle ∧ s.isDue r e = true)) : headTaken r s = s := by
  unfold headTaken
  rw [hqueue]
  split
  case h_1 hidle hcons =>
    obtain ⟨rfl, -⟩ := List.cons.inj hcons
    exact if_neg fun hdue => hnot ⟨hidle, hdue⟩
  case h_2 => rfl

/-- An engine replaced leaves the other one, the spray patterns and the lead. -/
theorem setEngine_others (s : State) (r : Rail) (x : Engine) :
    (∀ q : Rail, q ≠ r → (s.setEngine r x).marker.engines.get q = s.marker.engines.get q)
      ∧ (s.setEngine r x).marker.sprays = s.marker.sprays ∧ (s.setEngine r x).marker.lead = s.marker.lead :=
  ⟨fun _ hq => PerRail.get_set_ne _ hq _, rfl, rfl⟩

theorem setEngine_same (s : State) (r : Rail) (x : Engine) : (s.setEngine r x).marker.engines.get r = x :=
  PerRail.get_set_same _ _ _

theorem setQueue_engine (s : State) (r : Rail) (q : List MarkerEntry) :
    (s.setQueue r q).marker.engines.get r = { s.marker.engines.get r with queue := q } := setEngine_same _ _ _

theorem engine_of_enter (s : State) (r : Rail) (x : EngineState) (v : Valves) :
    (s.enter r x v).marker.engines.get r = { s.marker.engines.get r with state := x, valves := v } := setEngine_same _ _ _

theorem queue_of_enter (s : State) (r : Rail) (x : EngineState) (v : Valves) :
    ((s.enter r x v).marker.engines.get r).queue = (s.marker.engines.get r).queue := by
  rw [engine_of_enter]

/-- A fired head: its engine paints, and the due test is that of the rest of the queue (R149, R150). -/
theorem headFired_spec (r : Rail) (s : State) (e : MarkerEntry) (rest : List MarkerEntry) (x : Record)
    {t : State} (ht : t = (((s.setQueue r rest).beginPullin r (s.markOf e) 1).emit x).dueTest r) :
    (∀ q : Rail, q ≠ r → t.marker.engines.get q = s.marker.engines.get q)
      ∧ t.marker.sprays = s.marker.sprays ∧ t.marker.lead = s.marker.lead ∧ changesOnly [.marker, .link] s t
      ∧ ∃ m, (t.marker.engines.get r).state = .painting .pullin m ∧ m.target = e.target
          ∧ m.shape = s.marker.sprays[e.spray] ∧ m.dash = 1 ∧ m.distance = 0
          ∧ (t.marker.engines.get r).queue = (((s.setQueue r rest).dueTest r).marker.engines.get r).queue
          ∧ t.link = (((s.setQueue r rest).emit x).dueTest r).link
          ∧ (t.marker.engines.get r).valves = { colour0 := !m.shape.colour, colour1 := m.shape.colour, purge := false } := by
  subst ht
  obtain ⟨hothers, hstate, hvalves, -, hsprays, hlead⟩ :=
    dueTest_engine (((s.setQueue r rest).beginPullin r (s.markOf e) 1).emit x) r
  obtain ⟨hqothers, -, -⟩ := setEngine_others s r { s.marker.engines.get r with queue := rest }
  have hpaints := engine_of_enter (s.setQueue r rest) r (.painting .pullin { s.markOf e with
    dash := 1, distance := 0, elapsed := 0, dashElapsed := 0,
    phaseTime := msPeriods s.params.pullinMs, dashTime := msPeriods s.params.maxDashMs }) (colourValve (s.markOf e))
  have hqueue : (((s.setQueue r rest).beginPullin r (s.markOf e) 1).marker.engines.get r).queue =
      ((s.setQueue r rest).marker.engines.get r).queue := queue_of_enter _ _ _ _
  have hplain := dueTest_congr (r := r) (u := ((s.setQueue r rest).beginPullin r (s.markOf e) 1).emit x)
    (v := s.setQueue r rest) ⟨hqueue, rfl, rfl, rfl, rfl⟩
  have hemitted := dueTest_congr (r := r) (u := ((s.setQueue r rest).beginPullin r (s.markOf e) 1).emit x)
    (v := (s.setQueue r rest).emit x) ⟨hqueue, rfl, rfl, rfl, rfl⟩
  refine ⟨fun q hq => ?_, hsprays, hlead, ?_, _, hstate.trans (congrArg Engine.state hpaints), rfl, rfl, rfl, rfl, hplain.1,
    hemitted.2 rfl, hvalves.trans (congrArg Engine.valves hpaints)⟩
  · rw [hothers q hq]
    exact (PerRail.get_set_ne _ hq _).trans (hqothers q hq)
  · exact changesOnly_trans (changesOnly_trans (changesOnly_trans (changesOnly_mono (setEngine_changes s r _) (by simp))
      (changesOnly_mono (setEngine_changes _ r _) (by simp))) (changesOnly_mono (emit_changes _ _) (by simp)))
      (dueTest_changes _ r)

/-- A head dropped for its lateness: the engine stays IDLE and makes the due test (R153). -/
theorem headDropped_spec (r : Rail) (s : State) (rest : List MarkerEntry) (x : Record)
    (hidle : (s.marker.engines.get r).state = .idle) {t : State} (ht : t = ((s.setQueue r rest).emit x).dueTest r) :
    (∀ q : Rail, q ≠ r → t.marker.engines.get q = s.marker.engines.get q)
      ∧ t.marker.sprays = s.marker.sprays ∧ t.marker.lead = s.marker.lead ∧ changesOnly [.marker, .link] s t
      ∧ (t.marker.engines.get r).state = .idle ∧ (t.marker.engines.get r).queue.length ≤ rest.length
      ∧ t = ((s.setQueue r rest).emit x).dueTest r := by
  obtain ⟨hothers, hstate, -, hlength, hsprays, hlead⟩ := dueTest_engine ((s.setQueue r rest).emit x) r
  obtain ⟨hqothers, -, -⟩ := setEngine_others s r { s.marker.engines.get r with queue := rest }
  have hqueue := setQueue_engine s r rest
  rw [ht]
  refine ⟨fun q hq => (hothers q hq).trans (hqothers q hq), hsprays, hlead, ?_,
    hstate.trans ((congrArg Engine.state hqueue).trans hidle), hlength.trans_eq ?_, rfl⟩
  · exact changesOnly_trans (changesOnly_trans (changesOnly_mono (setEngine_changes s r _) (by simp))
      (changesOnly_mono (emit_changes _ _) (by simp))) (dueTest_changes _ r)
  · exact congrArg (fun g : Engine => g.queue.length) hqueue

/-- Settles O27: the due test by its loop, the head by its lateness and the late policy. -/
theorem headIsTaken : Obligations.HeadIsTaken := by
  refine ⟨fun r s => ?_, fun r e rest s hheld hqueue => answers_free (f := headTaken r) rfl hheld ?_⟩
  · obtain ⟨dropped, kept, hsplit, hall, hhead, hloop⟩ := dueTestLoop_spec r _ s (Nat.lt_succ_self _)
    refine ⟨dropped, kept, hsplit, hall, hhead, hloop.trans (congrArg _ ?_)⟩
    cases kept with
    | nil => rfl
    | cons e rest =>
      show s.latch r e :: rest = _
      unfold State.latch
      rfl
  · split
    case isFalse hwaits => exact headTaken_waits hqueue hwaits
    case isTrue hdue =>
      obtain ⟨hidle, hdue⟩ := hdue
      rw [headTaken_due hidle hqueue hdue]
      split
      case isTrue hintime =>
        exact headFired_spec r s e rest _ rfl
      case isFalse hlate =>
        split
        case isTrue hhalt =>
          obtain ⟨hothers, hsprays, hlead⟩ := setEngine_others s r { s.marker.engines.get r with state := .halted, valves := .off }
          have hhalted := engine_of_enter s r .halted .off
          exact ⟨hothers, hsprays, hlead, changesOnly_trans (changesOnly_mono (setEngine_changes s r _) (by simp))
            (changesOnly_mono (emit_changes _ _) (by simp)), congrArg Engine.state hhalted,
            (congrArg Engine.queue hhalted).trans hqueue, congrArg Engine.valves hhalted, rfl⟩
        case isFalse hdrop => exact headDropped_spec r s rest _ hidle rfl

end Sys2Proof.Machine
end


section
/-! PROOFS. The phases of a mark and the pulse of its HOLD. -/
namespace Sys2Proof.Machine

theorem msPeriods_eq (ms : Nat) : msPeriods ms = 100 * ms := Nat.mul_comm ms 100

/-! ## HOLD (R155, R156) -/

theorem pullinEnd_painting {r : Rail} {m : Mark} {s : State} (h : (s.marker.engines.get r).state = .painting .pullin m) :
    pullinEnd r s = s.beginHold r m := by
  unfold pullinEnd
  rw [h]

theorem holdPulsePeriod_painting {r : Rail} {m : Mark} {s : State}
    (h : (s.marker.engines.get r).state = .painting .hold m) : holdPulsePeriod r s =
      if (s.marker.engines.get r).valves = colourValve m ∧ m.holdOn < m.holdPeriod then
        s.enter r (.painting .hold { m with holdCount := m.holdOn }) .off
      else s.enter r (.painting .hold { m with holdCount := 0 }) (colourValve m) := by
  unfold holdPulsePeriod
  rw [h]

/-- A pulse edge enters HOLD again with a count and an output (R156). -/
theorem pulsed_spec (s : State) (r : Rail) (m : Mark) (n : Nat) (v : Valves) {t : State}
    (ht : t = s.enter r (.painting .hold { m with holdCount := n }) v) :
    (∃ n, (t.marker.engines.get r).state = .painting .hold { m with holdCount := n })
      ∧ (t.marker.engines.get r).valves = v ∧ (t.marker.engines.get r).queue = (s.marker.engines.get r).queue
      ∧ (∀ q : Rail, q ≠ r → t.marker.engines.get q = s.marker.engines.get q) ∧ changesOnly [.marker] s t := by
  subst ht
  obtain ⟨hothers, -, -⟩ := setEngine_others s r
    { s.marker.engines.get r with state := .painting .hold { m with holdCount := n }, valves := v }
  rw [engine_of_enter]
  exact ⟨⟨n, rfl⟩, rfl, rfl, hothers, setEngine_changes s r _⟩

/-- Settles O28: PULLIN's end, and a pulse edge of either kind. -/
theorem holdIsPulsed : Obligations.HoldIsPulsed := by
  intro r m s hheld
  refine ⟨fun hpullin => exec_free (f := pullinEnd r) rfl hheld (pullinEnd_painting hpullin),
    fun hhold => answers_free (f := holdPulsePeriod r) rfl hheld ?_⟩
  rw [holdPulsePeriod_painting hhold]
  split
  · exact pulsed_spec s r m _ _ rfl
  · exact pulsed_spec s r m _ _ rfl

/-! ## The phases after a dash (R155) -/

section
variable {r : Rail} {m : Mark} {s : State}

theorem holdEnd_painting (h : (s.marker.engines.get r).state = .painting .hold m) :
    holdEnd r s = if m.dash < m.shape.dashCount then s.beginGap r m else s.afterDashes r m := by
  unfold holdEnd
  rw [h]

theorem gapEnd_painting (h : (s.marker.engines.get r).state = .painting .gap m) :
    gapEnd r s = s.beginPullin r m (m.dash + 1) := by
  unfold gapEnd
  rw [h]

theorem purgeEnd_painting (h : (s.marker.engines.get r).state = .painting .purge m) :
    purgeEnd r s = s.beginRecover r m := by
  unfold purgeEnd
  rw [h]

theorem recoverEnd_painting (h : (s.marker.engines.get r).state = .painting .recover m) :
    recoverEnd r s = s.enterIdle r := by
  unfold recoverEnd
  rw [h]

end

/-- What a phase of one rail leaves: the other engine, the spray patterns and the lead. -/
def State.leavesOthers (s t : State) (r : Rail) : Prop :=
  (∀ q : Rail, q ≠ r → t.marker.engines.get q = s.marker.engines.get q)
    ∧ t.marker.sprays = s.marker.sprays ∧ t.marker.lead = s.marker.lead

theorem enter_leavesOthers (s : State) (r : Rail) (x : EngineState) (v : Valves) : s.leavesOthers (s.enter r x v) r :=
  setEngine_others s r _

/-- The engine in IDLE after its due test, which alone tells of its queue (R149, R155). -/
def State.idlesAs (s t : State) (r : Rail) : Prop :=
  (t.marker.engines.get r).state = .idle ∧ (t.marker.engines.get r).valves = .off
    ∧ (t.marker.engines.get r).queue = ((s.dueTest r).marker.engines.get r).queue ∧ t.link = (s.dueTest r).link

theorem enterIdle_idles (s : State) (r : Rail) : changesOnly [.marker, .link] s (s.enterIdle r)
    ∧ s.leavesOthers (s.enterIdle r) r ∧ s.idlesAs (s.enterIdle r) r := by
  obtain ⟨hstate, hvalves, hchanges, hothers, -⟩ := enterIdle_spec s r
  obtain ⟨hqueue, hlink⟩ := enterIdle_dueTest s r
  obtain ⟨-, -, -, -, hsprays, -, hlead⟩ := SameConfig.enterIdle s r
  exact ⟨hchanges, ⟨hothers, hsprays, hlead⟩, hstate, hvalves, hqueue, hlink⟩

/-- The engine in a phase of its mark that lasts a number of periods, the queue and the link left (R155). -/
def State.paintsAs (s t : State) (r : Rail) (m : Mark) (phase : PaintPhase) (periods : Nat) (v : Valves) : Prop :=
  t.link = s.link ∧ ∃ d : Nat, t.marker.engines.get r = {
    queue := (s.marker.engines.get r).queue, valves := v
    state := .painting phase { m with distance := d, elapsed := 0, phaseTime := periods } }

theorem enter_paints (s : State) (r : Rail) (m : Mark) (phase : PaintPhase) (ms : Nat) (v : Valves) {t : State}
    (ht : t = s.enter r (.painting phase { m with distance := 0, elapsed := 0, phaseTime := msPeriods ms }) v) :
    changesOnly [.marker, .link] s t ∧ s.leavesOthers t r ∧ s.paintsAs t r m phase (100 * ms) v := by
  subst ht
  refine ⟨enter_changes s r _ _, enter_leavesOthers s r _ _, rfl, 0, ?_⟩
  rw [engine_of_enter, msPeriods_eq]

/-- RECOVER, or IDLE at once with a RECOVER_MS of 0 (R155). -/
theorem beginRecover_phase (s : State) (r : Rail) (m : Mark) : changesOnly [.marker, .link] s (s.beginRecover r m)
    ∧ s.leavesOthers (s.beginRecover r m) r
    ∧ if 0 < s.params.recoverMs then s.paintsAs (s.beginRecover r m) r m .recover (100 * s.params.recoverMs) .off
      else s.idlesAs (s.beginRecover r m) r := by
  unfold State.beginRecover
  by_cases hzero : s.params.recoverMs = 0
  · rw [if_pos hzero, if_neg (by omega)]
    exact enterIdle_idles s r
  · rw [if_neg hzero, if_pos (by omega)]
    exact enter_paints s r m .recover s.params.recoverMs .off rfl

/-- PURGE after the last dash where the shape asks for it, else what follows it (R155, R160). -/
theorem afterDashes_phase (s : State) (r : Rail) (m : Mark) : changesOnly [.marker, .link] s (s.afterDashes r m)
    ∧ s.leavesOthers (s.afterDashes r m) r
    ∧ if m.shape.purge = true ∧ 0 < s.params.purgeMs then
        s.paintsAs (s.afterDashes r m) r m .purge (100 * s.params.purgeMs) purgeValve
      else if 0 < s.params.recoverMs then
        s.paintsAs (s.afterDashes r m) r m .recover (100 * s.params.recoverMs) .off
      else s.idlesAs (s.afterDashes r m) r := by
  unfold State.afterDashes
  by_cases hpurge : m.shape.purge = true ∧ 0 < s.params.purgeMs
  · rw [if_pos hpurge, if_pos (by simpa using hpurge)]
    exact enter_paints s r m .purge s.params.purgeMs purgeValve rfl
  · rw [if_neg hpurge, if_neg (by simpa using hpurge)]
    exact beginRecover_phase s r m

/-- Settles O29: each phase's end by the phase it enters. -/
theorem phasesFollowTheTable : Obligations.PhasesFollowTheTable := by
  intro r m s hheld
  refine ⟨fun hhold => answers_free (f := holdEnd r) rfl hheld ?_, fun hgap => answers_free (f := gapEnd r) rfl hheld ?_,
    fun hpurge => answers_free (f := purgeEnd r) rfl hheld ?_, fun hrecover => answers_free (f := recoverEnd r) rfl hheld ?_⟩
  · rw [holdEnd_painting hhold]
    split
    case isTrue =>
      refine ⟨enter_changes s r _ _, enter_leavesOthers s r _ _, rfl, ?_⟩
      rw [State.beginGap, engine_of_enter, msPeriods_eq]
    case isFalse => exact afterDashes_phase s r m
  · rw [gapEnd_painting hgap]
    refine ⟨setEngine_changes s r _, enter_leavesOthers s r _ _, ?_⟩
    rw [State.beginPullin, engine_of_enter, msPeriods_eq, msPeriods_eq]
    rfl
  · rw [purgeEnd_painting hpurge]
    exact beginRecover_phase s r m
  · rw [recoverEnd_painting hrecover]
    exact enterIdle_idles s r

end Sys2Proof.Machine
end


section
/-! PROOFS. The marker commands. -/
namespace Sys2Proof.Machine

/-- A command with the index's parameters leaves what its owner makes of the state with its frame taken (R178). -/
theorem exec_fields {α : Type} {i : Instr} {s t : State} {m : Sender} {code : Byte} {a : α} {owner : α → State → State}
    (hexec : exec i s = .next (s.command m code (.fields a) owner)) (hheld : s.held = false)
    (ht : owner a (s.take m code) = t) : exec i s = .next t :=
  hexec.trans (congrArg Host.Outcome.next ((command_fields hheld m code a owner).trans ht))

/-! ## MARKER_RESUME (R154) -/

/-- A head re-armed is due at once or has a side not yet crossed (R149, R154). -/
theorem latch_rearm (s : State) (r : Rail) (e : MarkerEntry) : s.latch r (s.rearm r e) = s.rearm r e := by
  have hcrossed : (decide (s.past r e = 0) || crossed (sideOf (s.past r e)) (s.past r e)) = decide (s.past r e = 0) := by
    unfold crossed sideOf
    rcases lt_trichotomy (s.past r e) 0 with hbelow | hzero | habove
    · rw [if_pos hbelow]
      simp [hbelow.ne, hbelow.le]
    · simp [hzero]
    · rw [if_neg habove.not_gt, if_pos habove]
      simp [habove.ne', habove.le]
  rw [latch_either s r rfl]
  exact congrArg (fun b => ({ s.rearm r e with due := b } : MarkerEntry)) hcrossed

/-- A due test of an EITHER head latches it, and no more (R149, R152). -/
theorem dueTest_either_eq {s : State} {r : Rail} {e : MarkerEntry} {rest : List MarkerEntry}
    (hqueue : (s.marker.engines.get r).queue = e :: rest) (heither : e.arming = .either) :
    s.dueTest r = s.setQueue r (s.latch r e :: rest) := by
  have hstays : ¬ s.droppable r e := fun ⟨_, hnormal, _⟩ => Arming.noConfusion (heither.symm.trans hnormal)
  unfold State.dueTest dueTestLoop
  rw [hqueue]
  exact if_neg (mt (droppable_iff s r e).1 hstays)

theorem rearm_eq (s : State) (r : Rail) (e : MarkerEntry) : s.rearm r e = { e with
    arming := .either, due := decide (s.gun r = s.firePoint e.target)
    side := if s.gun r < s.firePoint e.target then some .below
      else if s.firePoint e.target < s.gun r then some .above else none } := by
  have hside : sideOf (s.past r e) = if s.gun r < s.firePoint e.target then some .below
      else if s.firePoint e.target < s.gun r then some .above else none :=
    if_congr (by unfold State.past; omega) rfl (if_congr (by unfold State.past; omega) rfl rfl)
  have hdue : decide (s.past r e = 0) = decide (s.gun r = s.firePoint e.target) :=
    decide_eq_decide.2 (by unfold State.past; omega)
  unfold State.rearm
  rw [hside, hdue]

section
variable {h : Sender} {a : MarkerResumeArgs} {s : State}

theorem markerResume_noRail (hrail : railOf a.rail = none) : markerResume h a s = s.refuse h 0x28 .range := by
  unfold markerResume
  rw [hrail]

theorem markerResume_badAction {r : Rail} (hrail : railOf a.rail = some r) (haction : 1 < a.action.toNat) :
    markerResume h a s = s.refuse h 0x28 .range := by
  unfold markerResume
  rw [hrail]
  exact if_pos haction

theorem markerResume_notHalted {r : Rail} (hrail : railOf a.rail = some r) (haction : ¬ 1 < a.action.toNat)
    (hstate : (s.marker.engines.get r).state ≠ .halted) : markerResume h a s = s.refuse h 0x28 .state := by
  unfold markerResume
  rw [hrail]
  refine (if_neg haction).trans ?_
  split
  case h_1 hhalted => exact absurd hhalted hstate
  case h_2 => rfl

/-- A HALTED engine resumed: RETRY or SKIP by the action, then the REPLY with the phase (R154). -/
theorem markerResume_halted {r : Rail} (hrail : railOf a.rail = some r) (haction : ¬ 1 < a.action.toNat)
    (hstate : (s.marker.engines.get r).state = .halted) : markerResume h a s =
      let s' := if a.action = 0 then s.resumeRetry r else s.resumeSkip r
      s'.reply h 0x28 .ok (u8 (s'.marker.engines.get r).state.code) := by
  unfold markerResume
  rw [hrail]
  refine (if_neg haction).trans ?_
  rw [hstate]

end

/-- An engine released from HALTED is in IDLE, with the state before its due test that gives queue and records (R154). -/
def State.releasedFrom (s t before : State) (r : Rail) : Prop :=
  changesOnly [.marker, .link] s t ∧ s.leavesOthers t r ∧ (t.marker.engines.get r).state = .idle
    ∧ (t.marker.engines.get r).valves = .off
    ∧ (t.marker.engines.get r).queue = ((before.dueTest r).marker.engines.get r).queue ∧ t.link = (before.dueTest r).link

theorem enterIdle_released (s before : State) (r : Rail) (hchanges : changesOnly [.marker, .link] s before)
    (hothers : s.leavesOthers before r) : s.releasedFrom (before.enterIdle r) before r := by
  obtain ⟨hidle, ⟨hengines, hsprays, hlead⟩, hstate, hvalves, hqueue, hlink⟩ := enterIdle_idles before r
  obtain ⟨hengines', hsprays', hlead'⟩ := hothers
  exact ⟨changesOnly_trans hchanges hidle, ⟨fun q hq => (hengines q hq).trans (hengines' q hq), hsprays.trans hsprays',
    hlead.trans hlead'⟩, hstate, hvalves, hqueue, hlink⟩

theorem reply_link_congr {u v : State} (hlink : u.link = v.link) (hodo : u.odo = v.odo) (h : Sender) (code : Byte)
    (x : Result) (bs : List Byte) : (u.reply h code x bs).link = (v.reply h code x bs).link := by
  rw [State.reply_link, State.reply_link, hlink, hodo]

/-- The REPLY to a MARKER_RESUME shows the phase IDLE, behind the records of the due test (R154). -/
theorem released_reply {s t before : State} {r : Rail} (h : Sender) (hreleased : s.releasedFrom t before r)
    (hodo : before.odo = s.odo) {w : State} (hw : w = t.reply h 0x28 .ok (u8 (t.marker.engines.get r).state.code)) :
    (w.marker.engines.get r).state = .idle ∧ (w.marker.engines.get r).valves = .off
      ∧ (∀ q : Rail, q ≠ r → w.marker.engines.get q = s.marker.engines.get q)
      ∧ w.marker.sprays = s.marker.sprays ∧ w.marker.lead = s.marker.lead ∧ changesOnly [.marker, .link] s w
      ∧ (w.marker.engines.get r).queue = ((before.dueTest r).marker.engines.get r).queue
      ∧ w.link = ((before.dueTest r).reply h 0x28 .ok (u8 0)).link := by
  subst hw
  obtain ⟨hchanges, ⟨hothers, hsprays, hlead⟩, hstate, hvalves, hqueue, hlink⟩ := hreleased
  have hcp : t.odo = (before.dueTest r).odo := (changesOnly_same hchanges .odo (by simp)).trans
    (hodo.symm.trans (changesOnly_same (dueTest_changes before r) .odo (by simp)).symm)
  rw [hstate]
  exact ⟨hstate, hvalves, hothers, hsprays, hlead,
    changesOnly_trans hchanges (changesOnly_mono (reply_changes _ _ _ _ _) (by simp)), hqueue,
    reply_link_congr hlink hcp _ _ _ _⟩

section
variable {s : State} {r : Rail}

theorem resumeRetry_empty (h : (s.marker.engines.get r).queue = []) : s.resumeRetry r = s.enterIdle r := by
  unfold State.resumeRetry
  rw [h]

theorem resumeRetry_head {e : MarkerEntry} {rest : List MarkerEntry} (h : (s.marker.engines.get r).queue = e :: rest) :
    s.resumeRetry r = (s.setQueue r (s.rearm r e :: rest)).enterIdle r := by
  unfold State.resumeRetry
  rw [h]

theorem resumeSkip_empty (h : (s.marker.engines.get r).queue = []) : s.resumeSkip r = s.enterIdle r := by
  unfold State.resumeSkip
  rw [h]

theorem resumeSkip_head {e : MarkerEntry} {rest : List MarkerEntry} (h : (s.marker.engines.get r).queue = e :: rest) :
    s.resumeSkip r = ((s.setQueue r rest).emit (s.markRecord r .skipped e 0)).enterIdle r := by
  unfold State.resumeSkip
  rw [h]

end

/-- A queue that holds a re-armed head loses nothing to the due test (R149, R154). -/
theorem rearmed_dueTest (s : State) (r : Rail) (e : MarkerEntry) (rest : List MarkerEntry) :
    (s.setQueue r (s.rearm r e :: rest)).dueTest r = s.setQueue r (s.rearm r e :: rest) := by
  have hqueue := setQueue_engine s r (s.rearm r e :: rest)
  rw [dueTest_either_eq (e := s.rearm r e) (rest := rest) (by rw [hqueue]) rfl, setQueue_setQueue]
  exact congrArg (fun x => s.setQueue r (x :: rest)) (latch_rearm s r e)

theorem resumed_nothing (s : State) (r : Rail) : s.releasedFrom (s.enterIdle r) s r :=
  enterIdle_released s s r (changesOnly_refl _ s) ⟨fun _ _ => rfl, rfl, rfl⟩

theorem resumed_retry (s : State) (r : Rail) (q : List MarkerEntry) :
    s.releasedFrom ((s.setQueue r q).enterIdle r) (s.setQueue r q) r :=
  enterIdle_released s _ r (changesOnly_mono (setEngine_changes s r _) (by simp)) (setEngine_others s r _)

theorem resumed_skip (s : State) (r : Rail) (q : List MarkerEntry) (x : Record) :
    s.releasedFrom (((s.setQueue r q).emit x).enterIdle r) ((s.setQueue r q).emit x) r :=
  enterIdle_released s _ r (changesOnly_trans (changesOnly_mono (setEngine_changes s r _) (by simp))
    (changesOnly_mono (emit_changes _ _) (by simp))) (setEngine_others s r _)

/-- Settles O30: the three refusals, and the release with an empty queue, with RETRY and with SKIP. -/
theorem markerResumeReleases : Obligations.MarkerResumeReleases := by
  intro h a i s hheld hi
  have hexec : exec i s = .next (s.command h 0x28 (.fields a) (markerResume h)) := by
    rcases hi with rfl | rfl
    · rfl
    · rfl
  split
  case h_1 hrail => exact exec_fields hexec hheld (markerResume_noRail hrail)
  case h_2 r hrail =>
    split
    case isTrue haction => exact exec_fields hexec hheld (markerResume_badAction hrail haction)
    case isFalse haction =>
      split
      case isTrue hstate => exact exec_fields hexec hheld (markerResume_notHalted hrail haction hstate)
      case isFalse hhalted =>
        refine answers_command hexec hheld ?_
        rw [markerResume_halted (s := s.take h 0x28) hrail haction (not_not.1 hhalted)]
        dsimp only
        have htaken : ∀ {t : State}, changesOnly [.marker, .link] (s.take h 0x28) t → changesOnly [.marker, .link] s t :=
          changesOnly_trans (changesOnly_mono (take_changes s h 0x28) (by simp))
        cases hqueue : (s.marker.engines.get r).queue with
        | nil =>
          have hresumed : (if a.action = 0 then (s.take h 0x28).resumeRetry r else (s.take h 0x28).resumeSkip r) =
              (s.take h 0x28).enterIdle r := by
            rw [resumeRetry_empty (s := s.take h 0x28) hqueue, resumeSkip_empty (s := s.take h 0x28) hqueue, ite_self]
          obtain ⟨hstate, hvalves, hothers, hsprays, hlead, hchanges, hkept, hlink⟩ :=
            released_reply h (resumed_nothing (s.take h 0x28) r) rfl rfl
          rw [dueTest_nil (s.take h 0x28) r hqueue] at hkept hlink
          rw [hresumed]
          exact ⟨hstate, hvalves, hothers, hsprays, hlead, ⟨hkept.trans hqueue, hlink⟩, htaken hchanges⟩
        | cons e rest =>
          by_cases hretry : a.action = 0
          · obtain ⟨hstate, hvalves, hothers, hsprays, hlead, hchanges, hkept, hlink⟩ :=
              released_reply h (resumed_retry (s.take h 0x28) r ((s.take h 0x28).rearm r e :: rest)) rfl rfl
            rw [rearmed_dueTest, setQueue_engine] at hkept
            rw [rearmed_dueTest] at hlink
            rw [if_pos hretry, resumeRetry_head (s := s.take h 0x28) hqueue]
            refine ⟨hstate, hvalves, hothers, hsprays, hlead, ?_, htaken hchanges⟩
            show if a.action = 0 then _ else _
            rw [if_pos hretry]
            exact ⟨hkept.trans (congrArg (· :: rest) (rearm_eq _ r e)), hlink⟩
          · obtain ⟨hstate, hvalves, hothers, hsprays, hlead, hchanges, hkept, hlink⟩ := released_reply h
              (resumed_skip (s.take h 0x28) r rest ((s.take h 0x28).markRecord r .skipped e 0)) rfl rfl
            have hsame := dueTest_congr (r := r) (u := ((s.take h 0x28).setQueue r rest).emit
              ((s.take h 0x28).markRecord r .skipped e 0)) (v := s.setQueue r rest)
              ⟨by rw [setQueue_engine]; exact congrArg Engine.queue (setQueue_engine _ r rest), rfl, rfl, rfl, rfl⟩
            rw [if_neg hretry, resumeSkip_head (s := s.take h 0x28) hqueue]
            refine ⟨hstate, hvalves, hothers, hsprays, hlead, ?_, htaken hchanges⟩
            show if a.action = 0 then _ else _
            rw [if_neg hretry]
            exact ⟨hkept.trans hsame.1, hlink⟩

/-! ## MARKER_TEST (R159) -/

section
variable {h : Sender} {a : MarkerTestArgs} {s : State}

theorem markerTest_range (hargs : ¬ ((railOf a.rail).isSome = true ∧ (sprayOf a.spray).isSome = true)) :
    markerTest h a s = s.refuse h 0x29 .range := by
  unfold markerTest
  split
  case h_1 hrail hspray => exact absurd ⟨by rw [hrail]; rfl, by rw [hspray]; rfl⟩ hargs
  case h_2 => rfl

theorem markerTest_busy {r : Rail} {n : Fin 7} (hrail : railOf a.rail = some r) (hspray : sprayOf a.spray = some n)
    (hbusy : (s.marker.engines.get r).state ≠ .idle) : markerTest h a s = s.refuse h 0x29 .busy := by
  unfold markerTest
  rw [hrail, hspray]
  dsimp only
  split
  case h_1 hidle => exact absurd hidle hbusy
  case h_2 => rfl

theorem markerTest_idle {r : Rail} {n : Fin 7} (hrail : railOf a.rail = some r) (hspray : sprayOf a.spray = some n)
    (hidle : (s.marker.engines.get r).state = .idle) : markerTest h a s =
      (((s.beginPullin r (s.markOf (s.testEntry r n)) 1).emit (s.markRecord r .testFired (s.testEntry r n) 0)).drew 1).reply
        h 0x29 .ok [] := by
  unfold markerTest
  rw [hrail, hspray]
  dsimp only
  rw [hidle]

end

/-! ## MARKER_CANCEL (R160) -/

theorem cancelAll_foldl (r : Rail) (q : List MarkerEntry) (s : State) :
    cancelAll r q s = q.foldl (fun u e => u.emit (s.markRecord r .cancelled e 0)) s := by
  induction q generalizing s with
  | nil => rfl
  | cons e rest ih =>
    unfold cancelAll
    rw [ih]
    rfl

theorem foldl_emit_changes (f : MarkerEntry → Record) (q : List MarkerEntry) (s : State) :
    changesOnly [.link] s (q.foldl (fun u e => u.emit (f e)) s) :=
  changesOnly_foldl _ (fun u _ => emit_changes u _) q s

/-- What a mark that is cut goes on with: PURGE, RECOVER or IDLE, and the outputs (R155, R160). -/
def State.cutMark (s : State) (m : Mark) : EngineState × Valves :=
  if m.shape.purge = true ∧ 0 < s.params.purgeMs then
    (.painting .purge { m with distance := 0, elapsed := 0, phaseTime := s.params.purgeMs * 100 }, purgeValve)
  else (if 0 < s.params.recoverMs then .painting .recover { m with
    distance := 0, elapsed := 0, phaseTime := s.params.recoverMs * 100 } else .idle, .off)

/-- The phase and the outputs that MARKER_CANCEL leaves an engine with (R160). -/
def State.cutTo (s : State) (r : Rail) : EngineState × Valves :=
  match (s.marker.engines.get r).state with
  | .idle | .painting .purge _ | .painting .recover _ =>
    ((s.marker.engines.get r).state, (s.marker.engines.get r).valves)
  | .halted => (.idle, .off)
  | .painting _ m => s.cutMark m

theorem enter_self (s : State) (r : Rail) :
    s.enter r (s.marker.engines.get r).state (s.marker.engines.get r).valves = s := by
  cases r
  all_goals rfl

/-- An engine with its queue emptied is cut to its phase and its outputs (R160). -/
theorem cancelEngine_eq {s : State} {r : Rail} (hempty : (s.marker.engines.get r).queue = []) :
    s.cancelEngine r = s.enter r (s.cutTo r).1 (s.cutTo r).2 := by
  have hcut : ∀ m : Mark, s.afterDashes r m = s.enter r (s.cutMark m).1 (s.cutMark m).2 := by
    intro m
    rw [afterDashes_empty s r m hempty]
    unfold State.cutMark
    split
    · rfl
    · rfl
  have hself := enter_self s r
  unfold State.cancelEngine State.cutTo
  cases hstate : (s.marker.engines.get r).state with
  | idle => exact (hstate ▸ hself).symm
  | halted => exact enterIdle_empty s r hempty
  | painting phase m =>
    cases phase with
    | pullin => exact hcut m
    | hold => exact hcut m
    | gap => exact hcut m
    | purge => exact (hstate ▸ hself).symm
    | recover => exact (hstate ▸ hself).symm

/-- The state with a queue cancelled record by record, its engine not yet cut (R160, R161). -/
def State.queueCancelled (s : State) (r : Rail) : State :=
  ((s.marker.engines.get r).queue.foldl (fun u e => u.emit (s.markRecord r .cancelled e 0)) s).setQueue r []

theorem markerCancel_eq {h : Sender} {b : Byte} {s : State} {r : Rail} (hrail : railOf b = some r) : markerCancel h b s =
    ((s.queueCancelled r).cancelEngine r).reply h 0x2A .ok (u8 (s.marker.engines.get r).queue.length) := by
  unfold markerCancel
  rw [hrail]
  dsimp only
  rw [cancelAll_foldl]
  exact congrArg (fun u : State => (u.cancelEngine r).reply h 0x2A .ok _) (foldl_emit_setQueue r _ [] _ s)

theorem markerCancel_noRail {h : Sender} {b : Byte} {s : State} (hrail : railOf b = none) :
    markerCancel h b s = s.refuse h 0x2A .range := by
  unfold markerCancel
  rw [hrail]

theorem queueCancelled_spec (s : State) (r : Rail) : changesOnly [.marker, .link] s (s.queueCancelled r)
    ∧ s.leavesOthers (s.queueCancelled r) r
    ∧ (s.queueCancelled r).marker.engines.get r = { s.marker.engines.get r with queue := [] } := by
  have hemitted := foldl_emit_changes (fun e => s.markRecord r .cancelled e 0) (s.marker.engines.get r).queue s
  have hmarker := changesOnly_same hemitted .marker (by simp)
  have hothers := setEngine_others
    ((s.marker.engines.get r).queue.foldl (fun u e => u.emit (s.markRecord r .cancelled e 0)) s) r
  refine ⟨changesOnly_trans (changesOnly_mono hemitted (by simp)) (changesOnly_mono (setEngine_changes _ r _) (by simp)),
    ?_, ?_⟩
  · obtain ⟨hengines, hsprays, hlead⟩ := hothers _
    exact ⟨fun q hq => (hengines q hq).trans (congrArg (fun m : Marker => m.engines.get q) hmarker),
      hsprays.trans (congrArg Marker.sprays hmarker), hlead.trans (congrArg Marker.lead hmarker)⟩
  · exact (setQueue_engine _ r []).trans
      (congrArg (fun m : Marker => ({ m.engines.get r with queue := [] } : Engine)) hmarker)

theorem cutMark_spec {s : State} {m : Mark} {x : EngineState} {v : Valves} (hstate : x = (s.cutMark m).1)
    (hvalves : v = (s.cutMark m).2) :
    if m.shape.purge = true ∧ 0 < s.params.purgeMs then
      v = { colour0 := false, colour1 := false, purge := true } ∧ x = .painting .purge { m with
        distance := 0, elapsed := 0, phaseTime := s.params.purgeMs * 100 }
    else v = .off ∧ x = if 0 < s.params.recoverMs then .painting .recover { m with
      distance := 0, elapsed := 0, phaseTime := s.params.recoverMs * 100 } else .idle := by
  unfold State.cutMark at hstate hvalves
  split
  case isTrue hpurge =>
    rw [if_pos hpurge] at hstate hvalves
    exact ⟨hvalves, hstate⟩
  case isFalse hrecover =>
    rw [if_neg hrecover] at hstate hvalves
    exact ⟨hvalves, hstate⟩

theorem drew_changes (s : State) (n : Nat) : changesOnly [.freeCtr] s (s.drew n) := by
  intro b
  cases b
  all_goals simp [Block.same]

theorem queueCancelled_cutTo (s : State) (r : Rail) : (s.queueCancelled r).cutTo r = s.cutTo r := by
  obtain ⟨hchanges, -, hengine⟩ := queueCancelled_spec s r
  unfold State.cutTo State.cutMark
  rw [hengine, changesOnly_same hchanges .params (by simp)]

/-- A queue cancelled and its engine cut (R160). -/
theorem cancelled_spec (s : State) (r : Rail) :
    ((s.queueCancelled r).cancelEngine r).link = (s.queueCancelled r).link
      ∧ s.leavesOthers ((s.queueCancelled r).cancelEngine r) r
      ∧ changesOnly [.marker, .link] s ((s.queueCancelled r).cancelEngine r)
      ∧ ((s.queueCancelled r).cancelEngine r).marker.engines.get r =
          { queue := [], state := (s.cutTo r).1, valves := (s.cutTo r).2 } := by
  obtain ⟨hchanges, ⟨hengines, hsprays, hlead⟩, hengine⟩ := queueCancelled_spec s r
  obtain ⟨hcut, hcutSprays, hcutLead⟩ := enter_leavesOthers (s.queueCancelled r) r (s.cutTo r).1 (s.cutTo r).2
  rw [cancelEngine_eq (congrArg Engine.queue hengine), queueCancelled_cutTo]
  refine ⟨rfl, ⟨fun q hq => (hcut q hq).trans (hengines q hq), hcutSprays.trans hsprays, hcutLead.trans hlead⟩,
    changesOnly_trans hchanges (enter_changes _ r _ _), ?_⟩
  rw [engine_of_enter, hengine]

/-- Settles O31: the test mark and its refusals; the queue cancelled and its engine cut. -/
theorem markerTestAndCancel : Obligations.MarkerTestAndCancel := by
  refine ⟨fun h a s hheld => ?_, fun h b s hheld => ?_⟩
  · split
    case h_1 r n hrail hspray =>
      split
      case isTrue hidle =>
        refine answers_command (owner := markerTest h) rfl hheld ?_
        rw [markerTest_idle (s := s.take h 0x29) hrail hspray hidle]
        refine ⟨⟨_, engine_of_enter _ _ _ _, rfl, rfl, rfl, rfl, rfl, rfl, rfl, rfl, rfl, rfl⟩, ?_, rfl, rfl, ?_⟩
        · exact fun q hq => PerRail.get_set_ne _ hq _
        · exact changesOnly_trans (changesOnly_trans (changesOnly_trans (changesOnly_trans
            (changesOnly_mono (take_changes s h 0x29) (by simp)) (changesOnly_mono (enter_changes _ r _ _) (by simp)))
            (changesOnly_mono (emit_changes _ _) (by simp))) (changesOnly_mono (drew_changes _ 1) (by simp)))
            (changesOnly_mono (reply_changes _ _ _ _ _) (by simp))
      case isFalse hbusy => exact exec_fields (owner := markerTest h) rfl hheld (markerTest_busy hrail hspray hbusy)
    case h_2 hargs =>
      refine exec_fields (owner := markerTest h) rfl hheld (markerTest_range fun ⟨hrail, hspray⟩ => ?_)
      obtain ⟨r, hrail⟩ := Option.isSome_iff_exists.1 hrail
      obtain ⟨n, hspray⟩ := Option.isSome_iff_exists.1 hspray
      exact hargs r n hrail hspray
  · split
    case h_1 hrail => exact exec_fields (owner := markerCancel h) rfl hheld (markerCancel_noRail hrail)
    case h_2 r hrail =>
      refine answers_command (owner := markerCancel h) rfl hheld ?_
      obtain ⟨hlink, ⟨hothers, hsprays, hlead⟩, hchanges, hengine⟩ := cancelled_spec (s.take h 0x2A) r
      rw [markerCancel_eq hrail]
      refine ⟨congrArg Engine.queue hengine, reply_link_congr hlink ?_ _ _ _ _, hothers, hsprays, hlead,
        changesOnly_trans (changesOnly_mono (take_changes s h 0x2A) (by simp))
          (changesOnly_trans hchanges (changesOnly_mono (reply_changes _ _ _ _ _) (by simp))), ?_⟩
      · exact (changesOnly_same hchanges .odo (by simp)).trans
          (changesOnly_same (foldl_emit_changes _ _ _) .odo (by simp)).symm
      · have hcut : (s.take h 0x2A).cutTo r = s.cutTo r := rfl
        have hstate := congrArg Engine.state hengine
        have hvalves := congrArg Engine.valves hengine
        rw [hcut] at hstate hvalves
        unfold State.cutTo at hstate hvalves
        dsimp only at hstate hvalves ⊢
        cases hold : (s.marker.engines.get r).state with
        | idle =>
          rw [hold] at hstate hvalves
          exact ⟨hstate, hvalves⟩
        | halted =>
          rw [hold] at hstate hvalves
          exact ⟨hstate, hvalves⟩
        | painting phase m =>
          rw [hold] at hstate hvalves
          cases phase with
          | purge => exact ⟨hstate, hvalves⟩
          | recover => exact ⟨hstate, hvalves⟩
          | pullin => exact cutMark_spec hstate hvalves
          | hold => exact cutMark_spec hstate hvalves
          | gap => exact cutMark_spec hstate hvalves

end Sys2Proof.Machine
end


section
/-! PROOFS. The Carriage Link: records at the report lanes, the link commands and command frames. -/
namespace Sys2Proof.Machine

/-! ## Refusals (R179) -/

theorem exec_wrongLength {α : Type} {i : Instr} {s : State} {m : Sender} {code : Byte} {n : Nat} {owner : α → State → State}
    (hexec : exec i s = .next (s.command m code (.wrongLength n) owner)) (hheld : s.held = false) :
    exec i s = .next ((s.take m code).refuse m code .length) :=
  hexec.trans (congrArg Host.Outcome.next (command_wrongLength hheld m code n owner))

/-- Settles O39: each row of the index by `exec_wrongLength`. -/
theorem unknownAndWrongLength : Obligations.UnknownAndWrongLength := by
  intro h code n s hheld
  refine ⟨exec_free (f := unknownCommand h code) rfl hheld rfl, ?_⟩
  repeat' apply And.intro
  all_goals exact exec_wrongLength rfl hheld

/-! ## A record at a lane (R173, R174) -/

/-- Whether a record is a HIT. -/
theorem hit_or_other (r : Record) : (∃ x, r = .hit x) ∨ ∀ x, r ≠ .hit x := by
  by_cases h : ∃ x, r = .hit x
  · exact .inl h
  · exact .inr fun x hx => h ⟨x, hx⟩

theorem admits_other (l : ReportLane) {r : Record} (h : ∀ x, r ≠ .hit x) :
    l.admits r = decide (l.fill + r.size + 16 ≤ l.size) := by
  unfold ReportLane.admits
  split
  case h_1 x => exact absurd rfl (h x)
  case h_2 => rfl

theorem accept_lost {l : ReportLane} {r : Record} (h : ∀ x, r ≠ .hit x) (hfull : l.admits r = false) (cp : Int) :
    l.accept cp r = { l.noteLoss cp with lost := satAdd16 l.lost 1 } := by
  unfold ReportLane.accept
  rw [hfull]
  refine (if_neg Bool.false_ne_true).trans ?_
  split
  case h_1 x => exact absurd rfl (h x)
  case h_2 => rfl

theorem accept_shed {l : ReportLane} {x : HitRecord} (hfull : l.admits (.hit x) = false) (cp : Int) :
    l.accept cp (.hit x) = { l.noteLoss cp with shed := satAdd16 l.shed 1 } := by
  unfold ReportLane.accept
  rw [hfull]
  exact if_neg Bool.false_ne_true

theorem accept_pushed {l : ReportLane} {r : Record} (h : l.admits r = true) (cp : Int) : l.accept cp r = l.push r := if_pos h

theorem owesLoss_iff (l : ReportLane) : l.owesLoss = true ↔ l.shed ≠ 0 ∨ l.lost ≠ 0 := by
  simp [ReportLane.owesLoss]

theorem noteLoss_eq (l : ReportLane) (cp : Int) : l.noteLoss cp = { l with
    lastLoss := cp, firstLoss := if l.shed = 0 ∧ l.lost = 0 then cp else l.firstLoss } := by
  unfold ReportLane.noteLoss
  by_cases howes : l.shed = 0 ∧ l.lost = 0
  · rw [if_pos howes, if_neg (mt (owesLoss_iff l).1 (by omega))]
  · rw [if_neg howes, if_pos ((owesLoss_iff l).2 (by omega))]

/-- A lane that owes no LOSS record takes a record at its tail (R173). -/
theorem push_clear {l : ReportLane} (hshed : l.shed = 0) (hlost : l.lost = 0) (r : Record) :
    l.push r = { l with records := l.records ++ [r] } := by
  unfold ReportLane.push
  rw [if_neg (mt (owesLoss_iff l).1 (by omega))]

/-- A lane that owes a LOSS record queues it first (R174). -/
theorem push_owing {l : ReportLane} (h : l.shed ≠ 0 ∨ l.lost ≠ 0) (r : Record) : l.push r = { l with
    records := l.records ++ [.loss l.shed l.lost l.firstLoss l.lastLoss, r], shed := 0, lost := 0 } := by
  unfold ReportLane.push
  rw [if_pos ((owesLoss_iff l).2 h)]
  simp [ReportLane.makeLoss, ReportLane.lossRecord]

/-- Whether R173's test lets a record into a lane of at least one page. -/
theorem admits_iff {l : ReportLane} (hpages : 1 ≤ l.pages) (r : Record) : l.admits r = true ↔
    ((∃ x, r = .hit x) → 4 * l.fill < 3 * (l.pages * 512))
      ∧ (¬ (∃ x, r = .hit x) → l.fill + r.size ≤ l.pages * 512 - 16) := by
  rcases hit_or_other r with ⟨x, rfl⟩ | hother
  · have hhit : ∃ y, Record.hit x = .hit y := ⟨x, rfl⟩
    exact decide_eq_true_iff.trans ⟨fun h => ⟨fun _ => h, fun hno => absurd hhit hno⟩, fun h => h.1 hhit⟩
  · have hno : ¬ ∃ x, r = .hit x := fun ⟨x, hx⟩ => hother x hx
    have hsize : l.fill + r.size + 16 ≤ l.size ↔ l.fill + r.size ≤ l.pages * 512 - 16 := by
      unfold ReportLane.size
      omega
    rw [admits_other l hother, decide_eq_true_iff, hsize]
    exact ⟨fun h => ⟨fun hhit => absurd hhit hno, fun _ => h⟩, fun h => h.2 hno⟩

theorem offer_lane (l : LinkState) (cp : Int) (r : Record) (n : Node) :
    (l.offer cp r).lanes.get n = (l.lanes.get n).offered cp r := by
  cases n
  all_goals rfl

/-- Settles O36: the offer lane by lane, the REPLY at its sender's lane, and a lane by its test. -/
theorem laneJudgesRecords : Obligations.LaneJudgesRecords := by
  refine ⟨fun r s => ⟨fun n => ?_, rfl, emit_changes s r, fun e he => ?_⟩, fun h code result data s => ?_,
    fun l cp r => ?_⟩
  · exact (offer_lane s.link s.odo.cp r n).trans (by cases r <;> rfl)
  · subst he
    exact ⟨rfl, rfl⟩
  · exact ⟨PerNode.get_set_same _ _ _, fun n hn => PerNode.get_set_ne _ hn _, rfl, reply_changes _ _ _ _ _⟩
  · intro isHit fits hpages
    have hadmits : l.admits r = true ↔ fits := admits_iff hpages r
    refine ⟨fun hfits hshed hlost => ?_, fun hfits howes => ?_, fun hfull hhit => ?_, fun hfull hother => ?_⟩
    · rw [accept_pushed (hadmits.2 hfits), push_clear hshed hlost]
    · rw [accept_pushed (hadmits.2 hfits), push_owing howes]
    · obtain ⟨x, rfl⟩ := hhit
      rw [accept_shed (Bool.eq_false_iff.2 (mt hadmits.1 hfull)), noteLoss_eq]
      rfl
    · rw [accept_lost (fun x hx => hother ⟨x, hx⟩) (Bool.eq_false_iff.2 (mt hadmits.1 hfull)), noteLoss_eq]
      rfl

/-! ## SUBSCRIBE and FLUSH_LANE (R172, R175) -/

/-- A REPLY without data takes five bytes of its lane. -/
theorem emptyReply_size (tag code : Byte) (x : Result) : (Record.reply tag code x []).size = 5 := rfl

/-- A lane of at least one page takes a REPLY without data where it holds nothing. -/
theorem emptyReply_admitted {l : ReportLane} (hpages : 1 ≤ l.pages) (hempty : l.records = []) (tag code : Byte) (x : Result) :
    l.admits (.reply tag code x []) = true := by
  have hfill : l.fill = 0 := by
    unfold ReportLane.fill
    rw [hempty]
    rfl
  refine (admits_iff hpages _).2 ⟨fun ⟨y, hy⟩ => Record.noConfusion hy, fun _ => ?_⟩
  rw [hfill, emptyReply_size]
  omega

theorem replied_lane {s : State} {l : ReportLane} (h : Sender) (code : Byte) (hl : s.link.lanes.get h.node = l)
    (x : Result) (bs : List Byte) :
    (s.reply h code x bs).link.lanes.get h.node = l.accept s.odo.cp (.reply h.tag code x bs) :=
  hl ▸ PerNode.get_set_same _ _ _

/-- A REPLY without data on an emptied lane, behind the LOSS record that it owes (R174, R175, R176). -/
theorem accept_emptied {l : ReportLane} (hpages : 1 ≤ l.pages) (hempty : l.records = []) (cp : Int) (tag code : Byte) :
    l.accept cp (.reply tag code .ok []) =
      if l.shed = 0 ∧ l.lost = 0 then { l with records := [.reply tag code .ok []] }
      else { l with records := [.loss l.shed l.lost l.firstLoss l.lastLoss, .reply tag code .ok []], shed := 0, lost := 0 } := by
  rw [accept_pushed (emptyReply_admitted hpages hempty _ _ _)]
  split
  case isTrue hclear => rw [push_clear hclear.1 hclear.2, hempty, List.nil_append]
  case isFalse howes => rw [push_owing (by omega), hempty, List.nil_append]

/-- Settles O37: SUBSCRIBE by its kind mask; FLUSH_LANE's REPLY enters the emptied lane. -/
theorem subscribeAndFlush : Obligations.SubscribeAndFlush := by
  refine ⟨fun h a s hheld => ?_, fun h s hheld => answers_command (owner := flushLane h) rfl hheld ?_⟩
  · split
    case isTrue hrange => exact exec_fields (owner := subscribe h) rfl hheld (if_pos hrange)
    case isFalse hfits => exact exec_fields (owner := subscribe h) rfl hheld (if_neg hfits)
  · refine ⟨fun hpages => ?_, fun m hm => ?_, ?_⟩
    · refine (replied_lane h 0x39 (PerNode.get_set_same _ _ _) .ok []).trans ?_
      exact (accept_emptied (by exact hpages) (by rfl) _ _ _).trans (if_pos ⟨rfl, rfl⟩)
    · exact (PerNode.get_set_ne _ hm _).trans (PerNode.get_set_ne _ hm _)
    · exact changesOnly_trans (changesOnly_trans (take_changes s h 0x39) (setLink_changes _ _)) (reply_changes _ _ _ _ _)

/-! ## PARTITION (R176) -/

theorem partitionFits_iff (a : PartitionArgs) : partitionFits a = false ↔ a.intake = 0 ∨ a.lane1 = 0 ∨ a.lane2 = 0
    ∨ a.lane3 = 0 ∨ a.intake.toNat + a.lane1.toNat + a.lane2.toNat + a.lane3.toNat ≠ 64 := by
  have hpos : ∀ b : Byte, b = 0 ↔ ¬ 1 ≤ b.toNat := fun b => by
    rw [← not_iff_not, not_not, ← Ne, ← toNat_ne_zero_iff]
    omega
  unfold partitionFits
  rw [hpos, hpos, hpos, hpos, ← Bool.not_eq_true]
  simp only [Bool.and_eq_true, decide_eq_true_eq]
  omega

/-- The page count that a partition gives a lane (R176). -/
def lanePages (a : PartitionArgs) (n : Node) : Nat :=
  (match n with | .n1 => a.lane1 | .n2 => a.lane2 | .n3 => a.lane3).toNat

theorem repartition_lane (l : LinkState) (cp : Int) (a : PartitionArgs) (n : Node) :
    (l.repartition cp a).lanes.get n = (l.lanes.get n).repartition cp (lanePages a n) := by
  cases n
  all_goals rfl

/-- A lane under a new partition holds nothing and has its records counted as lost (R173, R176). -/
theorem repartition_eq (l : ReportLane) (cp : Int) (pages : Nat) : l.repartition cp pages = { l with
    pages := pages, records := []
    lost := if l.records = [] then l.lost else min (l.lost + l.records.length) 65535
    firstLoss := if l.records = [] ∨ l.shed ≠ 0 ∨ l.lost ≠ 0 then l.firstLoss else cp
    lastLoss := if l.records = [] then l.lastLoss else cp } := by
  unfold ReportLane.repartition
  cases hrecords : l.records with
  | nil => simp
  | cons r rest =>
    dsimp only
    rw [if_neg (by simp), noteLoss_eq, if_neg (List.cons_ne_nil r rest), if_neg (List.cons_ne_nil r rest)]
    by_cases howes : l.shed = 0 ∧ l.lost = 0
    · rw [if_pos howes, if_neg (by simp [howes])]
      rfl
    · rw [if_neg howes, if_pos (.inr (by omega))]
      rfl

theorem lanePages_pos {a : PartitionArgs} (h : ¬ (a.intake = 0 ∨ a.lane1 = 0 ∨ a.lane2 = 0 ∨ a.lane3 = 0
    ∨ a.intake.toNat + a.lane1.toNat + a.lane2.toNat + a.lane3.toNat ≠ 64)) (n : Node) : 1 ≤ lanePages a n := by
  simp only [not_or] at h
  obtain ⟨-, h1, h2, h3, -⟩ := h
  cases n
  case n1 => exact Nat.one_le_iff_ne_zero.2 ((toNat_ne_zero_iff _).2 h1)
  case n2 => exact Nat.one_le_iff_ne_zero.2 ((toNat_ne_zero_iff _).2 h2)
  case n3 => exact Nat.one_le_iff_ne_zero.2 ((toNat_ne_zero_iff _).2 h3)

/-- Settles O38: the two refusals, and each lane under the new partition. -/
theorem partitionDividesMemory : Obligations.PartitionDividesMemory := by
  intro h a s hheld
  split
  case isTrue hbusy => exact exec_fields (owner := partition h) rfl hheld (if_pos hbusy)
  case isFalse hstopped =>
    split
    case isTrue hrange =>
      exact exec_fields (owner := partition h) rfl hheld ((if_neg hstopped).trans (if_pos ((partitionFits_iff a).2 hrange)))
    case isFalse hfits =>
      refine answers_command (owner := partition h) rfl hheld ?_
      have htaken : partition h a (s.take h 0x3A) = ((s.take h 0x3A).setLink
          ((s.take h 0x3A).link.repartition s.odo.cp a)).reply h 0x3A .ok [] :=
        (if_neg hstopped).trans (if_neg (mt (partitionFits_iff a).1 hfits))
      have hlanes := fun n => repartition_lane (s.take h 0x3A).link s.odo.cp a n
      have hpages := fun n => (sendTo_kept ((s.take h 0x3A).link.repartition s.odo.cp a) h.node s.odo.cp
        (.reply h.tag 0x3A .ok []) n).1.trans ((congrArg ReportLane.pages (hlanes n)).trans
          (congrArg ReportLane.pages (repartition_eq _ _ _)))
      rw [htaken]
      refine ⟨rfl, rfl, hpages .n1, hpages .n2, hpages .n3, fun n => ?_, rfl,
        changesOnly_trans (changesOnly_trans (take_changes s h 0x3A) (setLink_changes _ _)) (reply_changes _ _ _ _ _)⟩
      dsimp only
      by_cases hsender : n = h.node
      · subst hsender
        rw [if_neg (not_not.2 rfl)]
        refine (replied_lane h 0x3A ((hlanes h.node).trans (repartition_eq _ _ _)) .ok []).trans ?_
        exact accept_emptied (by exact lanePages_pos hfits h.node) (by rfl) _ _ _
      · rw [if_pos hsender]
        exact (PerNode.get_set_ne _ hsender _).trans ((hlanes n).trans (repartition_eq _ _ _))

/-! ## A closed command frame (R168) -/

theorem nodeOf_isNone (b : Byte) : (nodeOf b).isNone = true ↔ b.toNat / 32 % 4 = 0 := by
  have hlt : b.toNat / 32 % 4 < 4 := Nat.mod_lt _ (by decide)
  unfold nodeOf
  split
  case h_1 h => simp [h]
  case h_2 h => simp [h]
  case h_3 h => simp [h]
  case h_4 h1 h2 h3 =>
    refine iff_of_true rfl ?_
    have hne1 : b.toNat / 32 % 4 ≠ 1 := h1
    have hne2 : b.toNat / 32 % 4 ≠ 2 := h2
    have hne3 : b.toNat / 32 % 4 ≠ 3 := h3
    omega

theorem checked_isNone {bs : List Byte} (hlong : ¬ bs.length < 6) : (checked bs).isNone = true ↔
    bs.drop (bs.length - 2) ≠ u16 (crc16 (bs.take (bs.length - 2))).toNat := by
  unfold checked
  dsimp only
  split
  case isTrue h => simp [h.2]
  case isFalse h => exact iff_of_true rfl fun hsame => h ⟨by omega, hsame⟩

theorem lengthAgrees_iff (bs : List Byte) : lengthAgrees bs = false ↔
    50 < (bs.getD 3 0).toNat ∨ bs.length ≠ 4 + (bs.getD 3 0).toNat + 2 := by
  unfold lengthAgrees byteAt
  rw [Bool.and_eq_false_iff, decide_eq_false_iff_not, decide_eq_false_iff_not]
  omega

/-- Settles O34: the tests in order, each with its tally. -/
theorem commandFrameIsJudged : Obligations.CommandFrameIsJudged := by
  intro content s hheld hmode hrecovery
  have hreceiving : s.link.isReceiving = true := by simp [LinkState.isReceiving, hmode, hrecovery]
  have hjudged : commandFrameReceived content s =
      s.setLink { s.link.settleFrame (s.link.judgeFrame content) with receiver := .hunting } := if_pos hreceiving
  refine answers_free (f := commandFrameReceived content) rfl hheld ?_
  rw [hjudged]
  refine ⟨setLink_changes _ _, rfl, ?_⟩
  unfold LinkState.judgeFrame
  cases hbytes : bytesOfBits content with
  | none => rfl
  | some bs =>
    dsimp only
    by_cases hshort : bs.length < 6
    · rw [if_pos hshort, if_pos hshort]
      rfl
    rw [if_neg hshort, if_neg hshort]
    by_cases hnode : (bs.getD 0 0).toNat / 32 % 4 = 0
    · rw [if_pos ((nodeOf_isNone (byteAt bs 0)).2 hnode), if_pos hnode]
      rfl
    rw [if_neg (mt (nodeOf_isNone (byteAt bs 0)).1 hnode), if_neg hnode]
    by_cases hcheck : bs.drop (bs.length - 2) ≠ u16 (crc16 (bs.take (bs.length - 2))).toNat
    · rw [if_pos ((checked_isNone hshort).2 hcheck), if_pos hcheck]
      rfl
    rw [if_neg (mt (checked_isNone hshort).1 hcheck), if_neg hcheck]
    by_cases hlength : 50 < (bs.getD 3 0).toNat ∨ bs.length ≠ 4 + (bs.getD 3 0).toNat + 2
    · rw [if_pos ((lengthAgrees_iff bs).2 hlength), if_pos hlength]
      rfl
    rw [if_neg (mt (lengthAgrees_iff bs).1 hlength), if_neg hlength]
    by_cases hroom : s.link.intakePages * 512 < s.link.intakeFill + bs.length
    · rw [if_pos hroom, if_pos hroom]
      rfl
    rw [if_neg hroom, if_neg hroom]
    rfl

end Sys2Proof.Machine
end


section
/-! PROOFS. Run control and warm reset: the judging of run-control commands, PAUSE_RUN, RESUME_RUN and END_RUN, and what
a warm reset and a link break leave; the command receiver, and the bytes of a lane field. -/
namespace Sys2Proof.Machine

/-! ## The bytes of a lane field (R171, R174) -/

/-- The last record of a lane moves to the stage: a lane that owes a LOSS record has it queued (R174). -/
theorem moveHead_last (l : ReportLane) (r : Record) : l.moveHead r [] = { l with
    records := if l.shed ≠ 0 ∨ l.lost ≠ 0 then [.loss l.shed l.lost l.firstLoss l.lastLoss] else []
    stage := some (r, 1), lastByte := r.bytes.getD 0 0, shed := 0, lost := 0 } := by
  unfold ReportLane.moveHead
  by_cases howes : l.shed ≠ 0 ∨ l.lost ≠ 0
  · rw [(owesLoss_iff l).2 howes, if_pos howes]
    rfl
  · have hclear : l.shed = 0 ∧ l.lost = 0 := by omega
    rw [Bool.eq_false_iff.2 (mt (owesLoss_iff l).1 howes), if_neg howes]
    simp [hclear.1, hclear.2]

theorem moveHead_more (l : ReportLane) (r x : Record) (rest : List Record) : l.moveHead r (x :: rest) =
    { l with records := x :: rest, stage := some (r, 1), lastByte := r.bytes.getD 0 0 } := rfl

/-- Settles O33: the stage, the empty queue and the head record, which may be the last. -/
theorem laneByteIsSent : Obligations.LaneByteIsSent := by
  intro n s hheld
  refine answers_free (f := reportLaneByte n) rfl hheld ⟨fun m hm => PerNode.get_set_ne _ hm _, rfl, setLink_changes _ _, ?_⟩
  have hlane : (reportLaneByte n s).link.lanes.get n = (s.link.lanes.get n).sendByte := PerNode.get_set_same _ _ _
  rw [hlane]
  unfold ReportLane.sendByte
  cases hstage : (s.link.lanes.get n).stage with
  | some x => rfl
  | none =>
    cases hrecords : (s.link.lanes.get n).records with
    | nil => rfl
    | cons r rest =>
      dsimp only
      cases rest with
      | nil =>
        rw [moveHead_last, if_pos rfl, if_pos rfl]
        exact ⟨rfl, rfl, by simp, rfl⟩
      | cons x rest =>
        rw [moveHead_more, if_neg (List.cons_ne_nil x rest), if_neg (List.cons_ne_nil x rest)]
        exact ⟨rfl, rfl, (if_neg (by simp)).symm, rfl⟩

/-! ## Warm reset (R32) -/

theorem sendAll_lane (l : LinkState) (cp : Int) (r : Record) (n : Node) :
    (l.sendAll cp r).lanes.get n = (l.lanes.get n).accept cp r := by
  cases n
  all_goals rfl

theorem warmReset_event_size (cp : Int) (at' : RunState) (num : Word16) (cause : ResetCause) :
    (Record.event cp (.warmReset at' num cause)).size = 13 := by
  cases cause
  all_goals rfl

theorem warm_lane (l : LinkState) (cause : ResetCause) (n : Node) :
    (l.warm cause).lanes.get n = (l.lanes.get n).warm := by
  cases n
  all_goals rfl

/-- A report lane after a warm reset holds the WARM_RESET EVENT alone (R32, R177). -/
theorem warmReset_lane (s : State) (cause : ResetCause) (n : Node) (hpages : 1 ≤ (s.link.lanes.get n).pages) :
    (s.warmReset cause).link.lanes.get n = { s.link.lanes.get n with
      records := [.event s.odo.cp (.warmReset s.run.state s.run.runNumber cause)]
      shed := 0, lost := 0, firstLoss := 0, lastLoss := 0 } := by
  have hadmits : (s.link.lanes.get n).warm.admits (.event s.odo.cp (.warmReset s.run.state s.run.runNumber cause)) = true := by
    refine (admits_iff (by exact hpages) _).2 ⟨fun ⟨y, hy⟩ => Record.noConfusion hy, fun _ => ?_⟩
    have hfill : (s.link.lanes.get n).warm.fill = 0 := rfl
    have hkept : (s.link.lanes.get n).warm.pages = (s.link.lanes.get n).pages := rfl
    rw [hfill, hkept, warmReset_event_size]
    omega
  refine (sendAll_lane _ _ _ n).trans ?_
  rw [show (s.warmValues cause).link.lanes.get n = _ from warm_lane s.link cause n, accept_pushed hadmits, push_clear rfl rfl]
  rfl

theorem isBreak_eq (cause : ResetCause) : cause.isBreak = decide (cause = .linkBreak) := by
  cases cause
  all_goals rfl

/-- What a warm reset leaves of the link beside its lanes (R177). -/
theorem warmReset_link (s : State) (cause : ResetCause) : (s.warmReset cause).link = { s.link with
    intake := [], dominantCount := 0, recovery := decide (cause = .linkBreak)
    receiver := if cause = .linkBreak then .hunting else s.link.receiver, lanes := (s.warmReset cause).link.lanes } := by
  cases cause
  all_goals rfl

/-- No firing record is outstanding after a warm reset (R54). -/
theorem warmReset_ring (s : State) (cause : ResetCause) (i : Fin 64) :
    ((s.warmReset cause).seq.ring[i]).outstanding = false := by
  have hring : (s.warmReset cause).seq.ring[i] = { s.seq.ring[i] with outstanding := false } := Vector.getElem_ofFn _
  rw [hring]

/-- What a warm reset leaves on each rail (R32, R72, R110, R144, R164). -/
theorem warmReset_rail (s : State) (cause : ResetCause) (r : Rail) :
    (s.warmReset cause).lanes.get r = { s.lanes.get r with
        state := .down, setupSent := 0, setupFinal := false, timer := 0, incomplete := 0
        corrupt := 0, stale := 0, unexpected := 0, duplicate := 0, txQueue := []
        coupling := ((s.warmReset cause).lanes.get r).coupling }
      ∧ (∀ p : Fin 16, ((s.warmReset cause).lanes.get r).coupling[p] = { state := .unknown, absent := 0, present := 0 })
      ∧ (s.warmReset cause).windows.get r =
        { k := 0, opening := 0, cells := [], tail := [], late := 0, early := 0, misplaced := 0 }
      ∧ (((s.warmReset cause).eval.gaps.get r).length = 0)
      ∧ (∀ p : Fin 32, (((s.warmReset cause).eval.runs.get r)[p]).length = 0)
      ∧ (s.warmReset cause).marker.engines.get r = { queue := [], state := .idle, valves := .off } := by
  have hfresh : ∀ p : Fin 16, (Vector.replicate 16 Coupling.fresh)[p] = { state := .unknown, absent := 0, present := 0 } :=
    fun p => Vector.getElem_replicate _
  have hclosed : ∀ p : Fin 32, ((Vector.replicate 32 PatternRun.closed)[p]).length = 0 :=
    fun p => congrArg PatternRun.length (Vector.getElem_replicate _)
  cases r
  all_goals exact ⟨rfl, hfresh, rfl, rfl, hclosed, rfl⟩

/-- Settles O43: the command by its owner, and the reset block by block. -/
theorem warmResetClears : Obligations.WarmResetClears := by
  refine ⟨fun h s hheld => exec_fields (owner := warmReset h) rfl hheld rfl, fun cause s => ?_⟩
  exact ⟨rfl, rfl, rfl, rfl, rfl, warmReset_ring s cause, warmReset_rail s cause, rfl, rfl, rfl, rfl, rfl,
    warmReset_link s cause, warmReset_lane s cause, rfl, rfl, rfl, rfl, rfl⟩

/-! ## The receiver and link breaks (R167, R170) -/

theorem receiving_iff (l : LinkState) : l.isReceiving = true ↔ l.receiver.mode = .receiving ∧ l.recovery = false := by
  simp [LinkState.isReceiving]

theorem breakDue_iff (l : LinkState) : l.breakDue = true ↔ 8 ≤ l.dominantCount ∧ l.recovery = false := by
  simp [LinkState.breakDue]

/-- Settles O35: each event by its condition; a link break is a warm reset. -/
theorem receiverAndBreaks : Obligations.ReceiverAndBreaks := by
  intro s hheld
  refine ⟨exec_free (f := delimiter) rfl hheld (if_congr (by simp) rfl rfl),
    exec_free (f := abort) rfl hheld (if_congr (receiving_iff _) rfl rfl),
    exec_free (f := oversize) rfl hheld (if_congr (receiving_iff _) rfl rfl), fun field => ?_, fun hrecovery => ?_,
    fun hclear => ?_⟩
  · refine exec_free (f := commandFieldEnd field) rfl hheld ?_
    exact if_congr (breakDue_iff (s.link.fieldEnd field)) rfl rfl
  · exact exec_free (f := linkBreak) rfl hheld (if_pos hrecovery)
  · have htaken : linkBreak s = s.warmReset .linkBreak := if_neg (by simp [hclear])
    have hexec : exec .linkBreak s = .next (s.warmReset .linkBreak) := exec_free (f := linkBreak) rfl hheld htaken
    refine ⟨hexec, answers_next hexec ?_⟩
    refine ⟨rfl, rfl, rfl, rfl, rfl, rfl, rfl, rfl, rfl, rfl, warmReset_ring s _, rfl, fun r => ?_, fun n hpages => ?_, rfl⟩
    · obtain ⟨hlane, -, hwindow, hgap, hruns, hengine⟩ := warmReset_rail s .linkBreak r
      rw [hlane, hwindow]
      exact ⟨hengine, rfl, rfl, rfl, rfl, hgap, hruns⟩
    · rw [warmReset_lane s _ n hpages]

/-! ## The judging of run control (R22, R23) -/

theorem inActiveStep_iff (s : State) (p : Fin 32) : s.inActiveStep p = true ↔
    ∃ k : Fin 16, k.val < s.params.stepCount ∧ (s.seq.steps[k]).probeSet.getLsbD p.val = true := by
  simp [State.inActiveStep]

theorem allUncounted_iff (s : State) : ((List.finRange 32).all fun p => !s.counted p) = true ↔
    ∀ (p : Fin 32) (k : Fin 16), k.val < s.params.stepCount → (s.probes[p]).enabled = true →
      (s.seq.steps[k]).probeSet.getLsbD p.val = false := by
  have hone : ∀ p, s.counted p = false ↔ ∀ k : Fin 16, k.val < s.params.stepCount → (s.probes[p]).enabled = true →
      (s.seq.steps[k]).probeSet.getLsbD p.val = false := by
    intro p
    rw [← Bool.not_eq_true, State.counted, Bool.and_eq_true, inActiveStep_iff]
    exact ⟨fun h k hk hon => Bool.eq_false_iff.2 fun hin => h ⟨hon, k, hk, hin⟩,
      fun h ⟨hon, k, hk, hin⟩ => by rw [h k hk hon] at hin; exact Bool.false_ne_true hin⟩
  simp only [List.all_eq_true, List.mem_finRange, forall_const, Bool.not_eq_true', hone]

theorem bandsAscend_iff (bands : Vector Nat 7) :
    bandsAscend bands = true ↔ ∀ i j : Fin 7, i.val + 1 = j.val → bands[i] ≤ bands[j] := by
  unfold bandsAscend
  simp only [Bool.and_eq_true, decide_eq_true_eq]
  constructor
  · rintro ⟨⟨⟨⟨⟨h0, h1⟩, h2⟩, h3⟩, h4⟩, h5⟩ i j hij
    obtain ⟨i, hi⟩ := i
    obtain ⟨j, hj⟩ := j
    obtain rfl : i + 1 = j := hij
    match i, hi, hj with
    | 0, _, _ => exact h0
    | 1, _, _ => exact h1
    | 2, _, _ => exact h2
    | 3, _, _ => exact h3
    | 4, _, _ => exact h4
    | 5, _, _ => exact h5
    | n + 6, _, hj => omega
  · exact fun h => ⟨⟨⟨⟨⟨h 0 1 rfl, h 1 2 rfl⟩, h 2 3 rfl⟩, h 3 4 rfl⟩, h 4 5 rfl⟩, h 5 6 rfl⟩

/-- A START_RUN in STOPPED whose checks fail answers CONFIG with the reason (R23). -/
theorem startRun_faulty {s : State} (h : Sender) (hheld : s.held = false) (hstopped : s.run.state = .stopped) {reason : Nat}
    (hfault : s.configFault = some reason) :
    exec (.startRun h (.fields ())) s = .next ((s.take h 0x01).reply h 0x01 .config (u8 reason)) := by
  refine exec_fields (owner := startRun h) rfl hheld ((if_neg (not_not.2 hstopped)).trans ?_)
  rw [show (s.take h 0x01).configFault = some reason from hfault]

/-- Settles O40: the run state of each command, then the checks of START_RUN in their order. -/
theorem runControlIsJudged : Obligations.RunControlIsJudged := by
  intro h s hheld
  refine ⟨fun hrun => exec_fields (owner := startRun h) rfl hheld (if_pos hrun),
    fun hrun => exec_fields (owner := pauseRun h) rfl hheld ?_, fun hrun => exec_fields (owner := resumeRun h) rfl hheld ?_,
    fun hrunning hpaused => exec_fields (owner := endRun h) rfl hheld ?_, fun hstopped => ⟨fun hsteps => ?_,
    fun hsteps hnone => ?_, fun hsteps hsome hbands => ?_⟩⟩
  · unfold pauseRun
    split
    case h_1 hrunning => exact absurd hrunning hrun
    case h_2 => rfl
  · unfold resumeRun
    split
    case h_1 hpaused => exact absurd hpaused hrun
    case h_2 => rfl
  · unfold endRun
    split
    case h_1 hrun => exact absurd hrun hrunning
    case h_2 hrun => exact absurd hrun hpaused
    case h_3 => rfl
  · exact startRun_faulty h hheld hstopped (if_pos hsteps)
  · exact startRun_faulty h hheld hstopped ((if_neg hsteps).trans (if_pos ((allUncounted_iff s).2 hnone)))
  · refine startRun_faulty h hheld hstopped ((if_neg hsteps).trans ((if_neg (mt (allUncounted_iff s).1 hsome)).trans (if_pos ?_)))
    rw [Bool.eq_false_iff.2 (mt (bandsAscend_iff _).1 hbands)]
    rfl

/-! ## PAUSE_RUN, RESUME_RUN and END_RUN (R27–R29) -/

/-- A run-control command's last part: suspension judged, the keep-alive timer settled and the REPLY queued. -/
def State.judgedAndReplied (v : State) (h : Sender) (code : Byte) (x : SuspendBeginCause) (y : SuspendEndCause) : State :=
  ((v.judgeSuspension x y).settleKeepAlive).replyRun h code

theorem judgedAndReplied_spec (v : State) (h : Sender) (code : Byte) (x : SuspendBeginCause) (y : SuspendEndCause) :
    (v.judgedAndReplied h code x y).run = { v.run with suspension := v.suspensionCause }
      ∧ (v.judgedAndReplied h code x y).seq = { v.seq with
          keepAliveTimer := if v.keepAliveRuns then v.seq.keepAliveTimer else 0 }
      ∧ (v.judgedAndReplied h code x y).zones = v.zonesWhen v.suspensionCause
      ∧ (v.judgedAndReplied h code x y).link =
          ((v.suspendedTo v.suspensionCause x y).reply h code .ok (u8 v.run.state.code)).link := by
  have hjudged := judgeSuspension_changes v x y
  have hsettled := settleKeepAlive_changes (v.judgeSuspension x y)
  have hodo : (v.judgeSuspension x y).odo = v.odo := changesOnly_same hjudged .odo (by simp)
  have hrun : (v.judgeSuspension x y).settleKeepAlive.run = { v.run with suspension := v.suspensionCause } :=
    (changesOnly_same hsettled .run (by simp)).trans (judgeSuspension_run v x y)
  have hruns : (v.judgeSuspension x y).keepAliveRuns = v.keepAliveRuns := by
    unfold State.keepAliveRuns
    rw [hodo, judgeSuspension_run]
  unfold State.judgedAndReplied State.replyRun
  refine ⟨hrun, ?_, ?_, ?_⟩
  · rw [State.reply_seq, settleKeepAlive_seq, hruns, changesOnly_same hjudged .seq (by simp)]
  · rw [State.reply_zones, changesOnly_same hsettled .zones (by simp), judgeSuspension_zones]
  · rw [hrun, ← judgeSuspension_eq]
    exact reply_link_congr (changesOnly_same hsettled .link (by simp)) (changesOnly_same hsettled .odo (by simp)) _ _ _ _

/-- The state with the run state changed by a command and its RUN_STATE EVENT told (R21). -/
def State.commanded (s : State) (h : Sender) (code : Byte) (new : RunState) : State := { s.take h code with
  run := { s.run with state := new }
  link := (s.take h code).link.told s.odo.cp [.runState new s.run.state s.run.runNumber (.command h)] }

/-- From `u` to `v` the run control agrees but for its close indices, and the sequencer but for the stopping mark. -/
structure State.ruledAs (u v : State) : Prop where
  odo : v.odo = u.odo
  params : v.params = u.params
  zones : v.zones = u.zones
  link : v.link = u.link
  run : v.run = { u.run with endK := v.run.endK }
  seq : v.seq = { u.seq with stopping := v.seq.stopping }

/-- The command's state with a cycle in progress marked to stop and the close indices recorded (R29, R46). -/
def State.markedAndCommanded (s : State) (h : Sender) (code : Byte) (new : RunState) (k : PerRail Int) : State :=
  (((s.take h code).setRun { s.run with endK := k }).markStopping).changeRun h new

theorem ruledAs_marked (s : State) (h : Sender) (code : Byte) (new : RunState) (k : PerRail Int) :
    (s.commanded h code new).ruledAs (s.markedAndCommanded h code new k) := by
  have hmark := markStopping_changes ((s.take h code).setRun { s.run with endK := k })
  have hrun : ((s.take h code).setRun { s.run with endK := k }).markStopping.run = { s.run with endK := k } :=
    changesOnly_same hmark .run (by simp)
  have hlink : ((s.take h code).setRun { s.run with endK := k }).markStopping.link = (s.take h code).link :=
    changesOnly_same hmark .link (by simp)
  have hodo : ((s.take h code).setRun { s.run with endK := k }).markStopping.odo = s.odo :=
    changesOnly_same hmark .odo (by simp)
  unfold State.markedAndCommanded
  refine ⟨hodo, changesOnly_same hmark .params (by simp), changesOnly_same hmark .zones (by simp), ?_, ?_, ?_⟩
  · unfold State.changeRun
    rw [event_link, State.setRun_link, State.setRun_odo, hrun, hodo, hlink]
    rfl
  · unfold State.changeRun
    rw [hrun]
    rfl
  · exact (markStopping_seq ((s.take h code).setRun { s.run with endK := k })).1

theorem markedAndCommanded_endK (s : State) (h : Sender) (code : Byte) (new : RunState) (k : PerRail Int) :
    (s.markedAndCommanded h code new k).run.endK = k :=
  congrArg RunControl.endK (changesOnly_same (markStopping_changes ((s.take h code).setRun { s.run with endK := k })) .run (by simp))

theorem markedAndCommanded_stopping (s : State) (h : Sender) (code : Byte) (new : RunState) (k : PerRail Int)
    (hcycle : s.seq.cycle ≠ .idle) : (s.markedAndCommanded h code new k).seq.stopping = true :=
  markStopping_set (s := (s.take h code).setRun { s.run with endK := k }) hcycle

theorem suspendedTo_odo (s : State) (b : Bool) (x : SuspendBeginCause) (y : SuspendEndCause) :
    (s.suspendedTo b x y).odo = s.odo := by
  unfold State.suspendedTo
  split
  · rfl
  · split
    · exact changesOnly_same (beginSuspension_changes s x) .odo (by simp)
    · exact changesOnly_same (endSuspension_changes s y) .odo (by simp)

/-- The commands' common part, where the run state they enter is `new` (R21, R26, R118, R119). -/
theorem judgedAndReplied_commanded {s v : State} {h : Sender} {code : Byte} {new : RunState}
    (hv : (s.commanded h code new).ruledAs v) (x : SuspendBeginCause) (y : SuspendEndCause) :
    (v.judgedAndReplied h code x y).run = { s.run with
        state := new, suspension := (s.commanded h code new).suspensionCause, endK := v.run.endK }
      ∧ (v.judgedAndReplied h code x y).seq = { s.seq with
          stopping := v.seq.stopping
          keepAliveTimer := if (s.commanded h code new).keepAliveRuns then s.seq.keepAliveTimer else 0 }
      ∧ (v.judgedAndReplied h code x y).zones = s.zonesWhen (s.commanded h code new).suspensionCause
      ∧ (v.judgedAndReplied h code x y).link = (((s.commanded h code new).suspendedTo
          (s.commanded h code new).suspensionCause x y).reply h code .ok (u8 new.code)).link := by
  obtain ⟨hrun, hseq, hzones, hlink⟩ := judgedAndReplied_spec v h code x y
  have hcause : v.suspensionCause = (s.commanded h code new).suspensionCause := by
    unfold State.suspensionCause
    rw [hv.run, hv.odo]
  have hruns : v.keepAliveRuns = (s.commanded h code new).keepAliveRuns := by
    unfold State.keepAliveRuns
    rw [hv.run, hv.odo]
  have hreach : v.run.reachAll = (s.commanded h code new).run.reachAll := by rw [hv.run]
  have hsuspended : v.run.suspension = (s.commanded h code new).run.suspension := by rw [hv.run]
  have hstate : v.run.state = new := by rw [hv.run]; rfl
  rw [hrun, hseq, hzones, hlink, hcause, hruns, hstate]
  refine ⟨?_, ?_, ?_, ?_⟩
  · rw [hv.run]
    rfl
  · rw [hv.seq]
    rfl
  · exact zonesWhen_congr (by rw [hv.zones]; rfl) (by rw [hv.odo]; rfl) (by rw [hreach]; rfl) (by rw [hsuspended]; rfl)
      (by rw [hv.params]; rfl) _
  · refine reply_link_congr (suspendedTo_link (by rw [hv.odo]) hreach hsuspended hv.params hv.zones hv.link _ _ _) ?_ _ _ _ _
    rw [suspendedTo_odo, suspendedTo_odo, hv.odo]

theorem suspensionCause_commanded (s : State) (h : Sender) (code : Byte) (new : RunState) :
    (s.commanded h code new).suspensionCause = (decide (new = .paused) || (decide (new = .running) && s.odo.lifted)) := rfl

/-- The keep-alive timer does not run in DRAINING (R40). -/
theorem keepAliveRuns_draining (s : State) (h : Sender) (code : Byte) : (s.commanded h code .draining).keepAliveRuns = false := by
  simp [State.keepAliveRuns, State.commanded]

/-- Settles O42: each command's common part, with the stopping mark and the close indices of its own. -/
theorem pauseResumeEnd : Obligations.PauseResumeEnd := by
  intro h s hheld
  refine ⟨fun hrun => answers_command (owner := pauseRun h) rfl hheld ?_,
    fun hrun => answers_command (owner := resumeRun h) rfl hheld ?_,
    fun hrun => answers_command (owner := endRun h) rfl hheld ?_⟩
  · have htaken : pauseRun h () (s.take h 0x02) =
        (s.markedAndCommanded h 0x02 .paused s.run.endK).judgedAndReplied h 0x02 .pause .endRun := by
      unfold pauseRun
      rw [show (s.take h 0x02).run.state = .running from hrun]
      rfl
    have hchanges := changesOnly_trans (changesOnly_mono (take_changes s h 0x02) (by simp)) (pauseRun_changes h () (s.take h 0x02))
    rw [htaken] at hchanges ⊢
    obtain ⟨hrun', hseq', hzones, hlink⟩ := judgedAndReplied_commanded (ruledAs_marked s h 0x02 .paused s.run.endK) .pause .endRun
    rw [hrun', hseq']
    exact ⟨rfl, rfl, rfl, markedAndCommanded_stopping s h 0x02 .paused s.run.endK, rfl, rfl, hzones, hlink, hchanges⟩
  · have htaken : resumeRun h () (s.take h 0x03) =
        ((s.take h 0x03).changeRun h .running).judgedAndReplied h 0x03 .lift .resume := by
      unfold resumeRun
      rw [show (s.take h 0x03).run.state = .paused from hrun]
      rfl
    have hchanges := changesOnly_trans (changesOnly_mono (take_changes s h 0x03) (by simp)) (resumeRun_changes h () (s.take h 0x03))
    rw [htaken] at hchanges ⊢
    have hruled : (s.commanded h 0x03 .running).ruledAs ((s.take h 0x03).changeRun h .running) := ⟨rfl, rfl, rfl, rfl, rfl, rfl⟩
    obtain ⟨hrun', hseq', hzones, hlink⟩ := judgedAndReplied_commanded hruled .lift .resume
    rw [hrun', hseq']
    have hcause : (s.commanded h 0x03 .running).suspensionCause = s.odo.lifted := by
      rw [suspensionCause_commanded]
      rfl
    rw [hcause] at hzones hlink ⊢
    exact ⟨rfl, rfl, rfl, rfl, rfl, hzones, hlink, hchanges⟩
  · have htaken : endRun h () (s.take h 0x04) = ((s.markedAndCommanded h 0x04 .draining
        { a := s.windows.a.k, b := s.windows.b.k }).judgedAndReplied h 0x04 .lift .endRun).judgeDrain := by
      unfold endRun
      rcases hrun with hrun | hrun
      all_goals
        rw [show (s.take h 0x04).run.state = _ from hrun]
        rfl
    have hchanges := changesOnly_trans (changesOnly_mono (take_changes s h 0x04) (by simp)) (endRun_changes h () (s.take h 0x04))
    rw [htaken] at hchanges ⊢
    have hpending : ((s.markedAndCommanded h 0x04 .draining { a := s.windows.a.k, b := s.windows.b.k }).judgedAndReplied
        h 0x04 .lift .endRun).pending = s.pending :=
      changesOnly_same (changesOnly_trans (changesOnly_mono (take_changes s h 0x04) (by simp))
        (enterDraining_changes h (s.take h 0x04))) .pending (by simp)
    obtain ⟨hrun', hseq', hzones, hlink⟩ := judgedAndReplied_commanded
      (ruledAs_marked s h 0x04 .draining { a := s.windows.a.k, b := s.windows.b.k }) .lift .endRun
    have hdrain := judgeDrain_changes ((s.markedAndCommanded h 0x04 .draining
      { a := s.windows.a.k, b := s.windows.b.k }).judgedAndReplied h 0x04 .lift .endRun)
    rw [changesOnly_same hdrain .run (by simp), changesOnly_same hdrain .seq (by simp), changesOnly_same hdrain .zones (by simp),
      changesOnly_same hdrain .link (by simp), judgeDrain_pending, hrun', hseq', hpending, markedAndCommanded_endK]
    exact ⟨rfl, rfl, fun r => by cases r <;> rfl, if_neg (by rw [keepAliveRuns_draining]; simp), markedAndCommanded_stopping s h 0x04 .draining _, rfl, hzones, hlink,
      if_congr (and_iff_right rfl) rfl rfl, hchanges⟩

end Sys2Proof.Machine
end


section
/-! PROOFS. The configuration tables: WRITE_PROBE, WRITE_PATTERN, WRITE_STEP and WRITE_SPRAY with their reads. -/
namespace Sys2Proof.Machine

/-- The shape of every taken write: blocks stored, the generation counter raised, and the REPLY (R35). -/
theorem written_changes {s t u : State} {h : Sender} {code : Byte} {b : Block} (hstored : changesOnly [b, .run, .link] (s.take h code) t)
    (hu : changesOnly [.link] t u) : changesOnly [b, .run, .link] s u :=
  changesOnly_trans (changesOnly_trans (changesOnly_mono (take_changes s h code) (by simp)) hstored)
    (changesOnly_mono hu (by simp))

/-- A stored block and a raised counter (R35). -/
theorem stored_changes {s t : State} {b : Block} (hstored : changesOnly [b] s t) :
    changesOnly [b, .run, .link] s t.bumpGeneration :=
  changesOnly_trans (changesOnly_mono hstored (by simp)) (changesOnly_mono (setRun_changes _ _) (by simp))

/-- A table after a write of one entry, at another. -/
theorem entry_of_other {α : Type} {n : Nat} (v : Vector α n) {k j : Fin n} (hj : j ≠ k) (x : α) : (v.set k x)[j] = v[j] :=
  Vector.getElem_set_ne k.isLt j.isLt fun he => hj (Fin.ext he.symm)

/-! ## The Probe Table (R73–R75) -/

/-- The result of a WRITE_PROBE and the value that it shows clamped (R75). -/
theorem takenDelay_eq (a : WriteProbeArgs) {p : Probe} (hdelay : p.delay = min a.delay.toNat 4095) :
    okOrClamped (decide (4095 < a.delay.toNat)) = (if 4095 < a.delay.toNat then .clamped else .ok)
      ∧ takenDelay (okOrClamped (decide (4095 < a.delay.toNat))) p = (if 4095 < a.delay.toNat then u16 4095 else []) := by
  unfold okOrClamped
  by_cases hover : 4095 < a.delay.toNat
  · rw [if_pos hover, if_pos hover, if_pos (decide_eq_true hover)]
    refine ⟨rfl, ?_⟩
    unfold takenDelay
    rw [hdelay, min_eq_right (by omega)]
  · rw [if_neg hover, if_neg hover, if_neg (by simp [hover])]
    exact ⟨rfl, rfl⟩

theorem setProbes_changes (s : State) (x : Vector Probe 32) : changesOnly [.probes] s (s.setProbes x) := by
  intro b
  cases b
  all_goals simp [Block.same]

/-- The entry that a taken WRITE_PROBE stores, and every other entry. -/
theorem takeProbe_spec (s : State) (h : Sender) (n : Fin 32) (p : Probe) (x : Result) :
    (s.takeProbe h n p x).probes[n] = p ∧ (∀ j : Fin 32, j ≠ n → (s.takeProbe h n p x).probes[j] = s.probes[j]) :=
  ⟨Vector.getElem_set_self _, fun j hj => entry_of_other _ hj _⟩

/-- Settles O46: the number, the stopped fields, the ranges, and the entry stored or read. -/
theorem probesAreWrittenAndRead : Obligations.ProbesAreWrittenAndRead := by
  unfold Obligations.ProbesAreWrittenAndRead
  intro roleNo
  have hrole : ∀ x, roleNo x = x.code := fun x => by cases x <;> rfl
  refine ⟨fun h a s hheld => ?_, fun h b s hheld => ?_⟩
  · intro same good
    have hgood : good ↔ WriteProbeArgs.inRange a := Iff.rfl
    have hsame : ∀ held, WriteProbeArgs.sameStopped a held = true ↔ same held := fun held => by
      simpa only [same, hrole] using sameStopped_iff a held
    split
    case isFalse hn => exact exec_fields (owner := writeProbe h) rfl hheld (dif_neg hn)
    case isTrue hn =>
      intro n
      have hreached : ∀ {t : State}, (if s.run.state ≠ .stopped ∧ WriteProbeArgs.sameStopped a s.probes[n] = false
          then (s.take h 0x12).refuse h 0x12 .busy
          else match WriteProbeArgs.entry a with
            | none => (s.take h 0x12).refuse h 0x12 .range
            | some p => (s.take h 0x12).takeProbe h n p (okOrClamped (decide (4095 < a.delay.toNat)))) = t →
          writeProbe h a (s.take h 0x12) = t := fun ht => (dif_pos hn).trans ht
      have hpassed : (s.run.state ≠ .stopped → same s.probes[n]) →
          ¬ (s.run.state ≠ .stopped ∧ WriteProbeArgs.sameStopped a s.probes[n] = false) :=
        fun hkept hbad => Bool.false_ne_true (hbad.2.symm.trans ((hsame _).2 (hkept hbad.1)))
      refine ⟨fun hrun hdiffers => ?_, fun hkept hbad => ?_, fun hkept hfits => ?_⟩
      · exact exec_fields (owner := writeProbe h) rfl hheld
          (hreached (if_pos ⟨hrun, Bool.eq_false_iff.2 (mt (hsame _).1 hdiffers)⟩))
      · refine exec_fields (owner := writeProbe h) rfl hheld (hreached ((if_neg (hpassed hkept)).trans ?_))
        rw [probeEntry_none a (mt hgood.2 hbad)]
      · obtain ⟨p, hentry, hon, hgroup, hoffset, hshift, hdelay, hlead, hfactor, hgates⟩ := probeEntry_some a (hgood.1 hfits)
        refine answers_command (owner := writeProbe h) rfl hheld ?_
        have htaken : writeProbe h a (s.take h 0x12) =
            (s.take h 0x12).takeProbe h n p (okOrClamped (decide (4095 < a.delay.toNat))) := by
          refine hreached ((if_neg (hpassed hkept)).trans ?_)
          rw [hentry]
        obtain ⟨hstored, hothers⟩ := takeProbe_spec (s.take h 0x12) h n p (okOrClamped (decide (4095 < a.delay.toNat)))
        obtain ⟨hresult, hshown⟩ := takenDelay_eq a hdelay
        rw [htaken]
        dsimp only
        rw [hstored]
        refine ⟨hon, hgroup, hoffset, hshift, hdelay, hlead, hfactor, fun i => ?_, hothers, rfl, ?_,
          written_changes (stored_changes (setProbes_changes _ _)) (reply_changes _ _ _ _ _)⟩
        · obtain ⟨hcode, hstart, hwidth, hthreshold, hband⟩ := hgates i
          exact ⟨(hrole _).trans hcode, hstart, hwidth, hthreshold, hband⟩
        · rw [← hresult, ← hshown]
          exact reply_link_congr rfl rfl _ _ _ _
  · split
    case isFalse hn => exact exec_fields (owner := readProbe h) rfl hheld (dif_neg hn)
    case isTrue hn =>
      intro p bytes
      have hbytes : bytes = p.bytes := by
        simp only [bytes, hrole]
        rfl
      rw [hbytes]
      exact ⟨probe_bytes p, exec_fields (owner := readProbe h) rfl hheld (dif_pos hn)⟩

/-! ## The Pattern Table (R125–R127, R135) -/

/-- What a taken WRITE_PATTERN stores, and the runs that it abandons (R127, R135). -/
theorem takePattern_spec (s : State) (h : Sender) (n : Fin 32) (p : Pattern) :
    (s.takePattern h n p).eval.patterns[n] = p
      ∧ (∀ j : Fin 32, j ≠ n → (s.takePattern h n p).eval.patterns[j] = s.eval.patterns[j])
      ∧ ∀ r : Rail, (((s.takePattern h n p).eval.runs.get r)[n]).length = 0
        ∧ ∀ j : Fin 32, j ≠ n → ((s.takePattern h n p).eval.runs.get r)[j] = (s.eval.runs.get r)[j] := by
  refine ⟨Vector.getElem_set_self _, fun j hj => entry_of_other _ hj _, fun r => ?_⟩
  cases r
  all_goals exact ⟨congrArg PatternRun.length (Vector.getElem_set_self _), fun j hj => entry_of_other _ hj _⟩

/-- Settles O47: the number, the ranges, and the entry stored or read with its runs. -/
theorem patternsAreWrittenAndRead : Obligations.PatternsAreWrittenAndRead := by
  unfold Obligations.PatternsAreWrittenAndRead
  intro kindNo
  have hkind : ∀ x, kindNo x = x.code := fun x => by cases x <;> rfl
  refine ⟨fun h a s hheld => ?_, fun h b s hheld => ?_⟩
  · intro good
    have hgood : good ↔ WritePatternArgs.inRange a := Iff.rfl
    split
    case isFalse hn => exact exec_fields (owner := writePattern h) rfl hheld (dif_neg hn)
    case isTrue hn =>
      intro n
      refine ⟨fun hbad => exec_fields (owner := writePattern h) rfl hheld ((dif_pos hn).trans ?_), fun hfits => ?_⟩
      · rw [patternEntry_none a (mt hgood.2 hbad)]
      · obtain ⟨p, hentry, hon, hurgent, hrails, hspread, hrun, hcls, hspray, hlength, hterms⟩ := patternEntry_some a (hgood.1 hfits)
        refine answers_command (owner := writePattern h) rfl hheld ?_
        have htaken : writePattern h a (s.take h 0x16) = (s.take h 0x16).takePattern h n p := by
          refine (dif_pos hn).trans ?_
          rw [hentry]
        obtain ⟨hstored, hothers, hruns⟩ := takePattern_spec (s.take h 0x16) h n p
        obtain ⟨hnone, hsome⟩ := sprayOf_spec a.spray
        rw [htaken]
        dsimp only
        rw [hstored]
        refine ⟨hon, hurgent, hrails, hspread, hrun, hcls, fun h0 => hspray.trans (hnone h0),
          fun k hk => hspray.trans (hsome k hk), hlength, fun i x y hx hy => ?_, hothers, hruns, rfl, rfl, rfl,
          reply_link_congr rfl rfl _ _ _ _,
          written_changes (stored_changes (setEval_changes _ _)) (reply_changes _ _ _ _ _)⟩
        obtain ⟨hgroup, hcode, hbands, hcount, hamplitude⟩ := hterms i x y hx hy
        exact ⟨hgroup, (hkind _).trans hcode, hbands, hcount, hamplitude⟩
  · split
    case isFalse hn => exact exec_fields (owner := readPattern h) rfl hheld (dif_neg hn)
    case isTrue hn =>
      intro n p entry runs
      have hspray : ∀ x : Option (Fin 7), (match x with | none => 0 | some k => k.val + 1) = sprayNo x :=
        fun x => by cases x <;> rfl
      have hentry : entry = p.bytes := by
        simp only [entry, hkind, hspray]
        rfl
      have hruns : runs = (s.eval.runs.a[n]).bytes ++ (s.eval.runs.b[n]).bytes := List.flatMap_cons.trans (by simp [List.flatMap] <;> rfl)
      rw [hentry, hruns, ← List.append_assoc]
      exact exec_fields (owner := readPattern h) rfl hheld (dif_pos hn)

/-! ## Steps and spray patterns (R37, R145) -/

theorem listenClamped_iff (us : Nat) : okOrClamped (listenClamped us) = if 10 ≤ us ∧ us ≤ 1000 then .ok else .clamped := by
  have hkept : clampListen us = us ↔ 10 ≤ us ∧ us ≤ 1000 := by
    unfold clampListen
    omega
  unfold okOrClamped listenClamped
  by_cases hin : 10 ≤ us ∧ us ≤ 1000
  · rw [if_pos hin, hkept.2 hin, bne_self_eq_false, if_neg Bool.false_ne_true]
  · rw [if_neg hin, if_pos (bne_iff_ne.2 (mt hkept.1 hin))]

theorem spraysEntry_none {a : WriteSprayArgs} (h : WriteSprayArgs.entry a = none) (s : State) (m : Sender) :
    writeSpray m a s = s.refuse m 0x18 .range := by
  unfold writeSpray
  rw [h]
  cases sprayOf a.number
  all_goals rfl

/-- Settles O48: each write by its number, its stopped field and its ranges, and each read by its number. -/
theorem stepsAndSpraysAreWrittenAndRead : Obligations.StepsAndSpraysAreWrittenAndRead := by
  refine ⟨fun h a s hheld => ?_, fun h b s hheld => ?_, fun h a s hheld => ?_, fun h b s hheld => ?_⟩
  · split
    case isFalse hk => exact exec_fields (owner := writeStep h) rfl hheld (dif_neg hk)
    case isTrue hk =>
      intro k
      split
      case isTrue hbusy => exact exec_fields (owner := writeStep h) rfl hheld ((dif_pos hk).trans (if_pos hbusy))
      case isFalse hkept =>
        refine answers_command (owner := writeStep h) rfl hheld ?_
        have htaken : writeStep h a (s.take h 0x14) = (s.take h 0x14).takeStep h k a := (dif_pos hk).trans (if_neg hkept)
        rw [htaken]
        refine ⟨Vector.getElem_set_self _, fun j hj => entry_of_other _ hj _, rfl, rfl, ?_,
          written_changes (stored_changes (setSeq_changes _ _)) (reply_changes _ _ _ _ _)⟩
        rw [← listenClamped_iff]
        exact reply_link_congr rfl rfl _ _ _ _
  · split
    case isTrue hk => exact exec_fields (owner := readStep h) rfl hheld (dif_pos hk)
    case isFalse hk => exact exec_fields (owner := readStep h) rfl hheld (dif_neg hk)
  · intro good
    split
    case h_1 hnone =>
      refine exec_fields (owner := writeSpray h) rfl hheld ?_
      unfold writeSpray
      rw [hnone]
    case h_2 n hsome =>
      refine ⟨fun hbad => exec_fields (owner := writeSpray h) rfl hheld (spraysEntry_none (if_neg hbad) _ _), fun hfits => ?_⟩
      refine answers_command (owner := writeSpray h) rfl hheld ?_
      have htaken : writeSpray h a (s.take h 0x18) = (s.take h 0x18).takeSpray h n (Spray.mk a.dashCount.toNat
          a.dashLength.toNat a.gapLength.toNat (decide (a.colour = 1)) (decide (a.purge = 1))) := by
        unfold writeSpray
        rw [hsome, show WriteSprayArgs.entry a = some _ from if_pos hfits]
      rw [htaken]
      exact ⟨Vector.getElem_set_self _, fun j hj => entry_of_other _ hj _, rfl, rfl, rfl,
        reply_link_congr rfl rfl _ _ _ _,
        written_changes (stored_changes (setMarker_changes _ _)) (reply_changes _ _ _ _ _)⟩
  · split
    case h_1 hnone =>
      refine exec_fields (owner := readSpray h) rfl hheld ?_
      unfold readSpray
      rw [hnone]
    case h_2 n hsome =>
      refine exec_fields (owner := readSpray h) rfl hheld ?_
      unfold readSpray
      rw [hsome]
      rfl

end Sys2Proof.Machine
end


section
/-! PROOFS. The parameters: SET_PARAM and GET_PARAM. -/
namespace Sys2Proof.Machine

/-! ## The parameters held (R180, R181) -/

/-- The parameters after a write, field by field. -/
theorem write_eq (q : Parameters) {id : Nat} (hid : id < 38) (x : Int) : q.write id x = {
    cellTicks := if id = 1 then x.toNat else q.cellTicks
    fireSpacing := if id = 2 then x.toNat else q.fireSpacing
    stepCount := if id = 3 then x.toNat else q.stepCount
    keepaliveMs := if id = 4 then x.toNat else q.keepaliveMs
    stillMs := if id = 5 then x.toNat else q.stillMs
    encFilter := if id = 6 then x.toNat else q.encFilter
    secondaryMode := if id = 7 then .ofCode x else q.secondaryMode
    slipLimit := if id = 8 then x.toNat else q.slipLimit
    liftFilter := if id = 9 then x.toNat else q.liftFilter
    coupleLose := if id = 10 then x.toNat else q.coupleLose
    coupleGain := if id = 11 then x.toNat else q.coupleGain
    reportWaitUs := if id = 12 then x.toNat else q.reportWaitUs
    setupWaitMs := if id = 13 then x.toNat else q.setupWaitMs
    closeMargin := if id = 14 then x.toNat else q.closeMargin
    bands := if h : 15 ≤ id ∧ id < 22 then q.bands.set (⟨id - 15, by omega⟩ : Fin 7) x.toNat else q.bands
    required := {
      a := if id = 22 then BitVec.ofInt 8 x else q.required.a
      b := if id = 23 then BitVec.ofInt 8 x else q.required.b }
    gapMin := if id = 24 then x.toNat else q.gapMin
    gunOffset := { a := if id = 25 then x else q.gunOffset.a, b := if id = 26 then x else q.gunOffset.b }
    valveLatencyUs := if id = 27 then x.toNat else q.valveLatencyUs
    latePolicy := {
      a := if id = 28 then .ofCode x else q.latePolicy.a
      b := if id = 29 then .ofCode x else q.latePolicy.b }
    lateTol := if id = 30 then x.toNat else q.lateTol
    mergeTicks := if id = 31 then x.toNat else q.mergeTicks
    maxDashMs := if id = 32 then x.toNat else q.maxDashMs
    pullinMs := if id = 33 then x.toNat else q.pullinMs
    holdPeriod := if id = 34 then x.toNat else q.holdPeriod
    holdDuty := if id = 35 then x.toNat else q.holdDuty
    purgeMs := if id = 36 then x.toNat else q.purgeMs
    recoverMs := if id = 37 then x.toNat else q.recoverMs } := by
  interval_cases id
  all_goals rfl

/-- The band boundaries after a write of the parameter `id`, at the boundary of the parameter `k + 15`. -/
theorem bands_of_other (bands : Vector Nat 7) {id : Nat} (y : Nat) (k : Fin 7) (h : k.val + 15 ≠ id) :
    (if hid : 15 ≤ id ∧ id < 22 then bands.set (⟨id - 15, by omega⟩ : Fin 7) y else bands)[k] = bands[k] := by
  by_cases hid : 15 ≤ id ∧ id < 22
  · rw [dif_pos hid]
    exact entry_of_other _ (fun he => h (by rw [he]; exact Nat.sub_add_cancel hid.1)) _
  · rw [dif_neg hid]

/-- A write of one parameter leaves every other as it was (R180). -/
theorem read_write_other (q : Parameters) {id n : Nat} (hid : id < 38) (h : n ≠ id) (x : Int) :
    (q.write id x).read n = q.read n := by
  rw [write_eq q hid]
  unfold Parameters.read
  split
  case h_15 => exact congrArg Nat.cast (bands_of_other q.bands x.toNat 0 h)
  case h_16 => exact congrArg Nat.cast (bands_of_other q.bands x.toNat 1 h)
  case h_17 => exact congrArg Nat.cast (bands_of_other q.bands x.toNat 2 h)
  case h_18 => exact congrArg Nat.cast (bands_of_other q.bands x.toNat 3 h)
  case h_19 => exact congrArg Nat.cast (bands_of_other q.bands x.toNat 4 h)
  case h_20 => exact congrArg Nat.cast (bands_of_other q.bands x.toNat 5 h)
  case h_21 => exact congrArg Nat.cast (bands_of_other q.bands x.toNat 6 h)
  all_goals simp [h.symm]

theorem code_ofCode_mode {x : Int} (h : 0 ≤ x ∧ x ≤ 2) : (SecondaryMode.ofCode x).code = x := by
  obtain rfl | rfl | rfl : x = 0 ∨ x = 1 ∨ x = 2 := by omega
  all_goals rfl

theorem ofCode_eq {x : Int} (h : 0 ≤ x ∧ x ≤ 2) :
    SecondaryMode.ofCode x = if x = 0 then .off else if x = 1 then .monitor else .failover := by
  obtain rfl | rfl | rfl : x = 0 ∨ x = 1 ∨ x = 2 := by omega
  all_goals rfl

theorem ofCode_off_iff {x : Int} (h : 0 ≤ x ∧ x ≤ 2) : SecondaryMode.ofCode x = .off ↔ x = 0 := by
  obtain rfl | rfl | rfl : x = 0 ∨ x = 1 ∨ x = 2 := by omega
  all_goals decide

theorem code_ofCode_policy {x : Int} (h : 0 ≤ x ∧ x ≤ 2) : (LatePolicy.ofCode x).code = x := by
  obtain rfl | rfl | rfl : x = 0 ∨ x = 1 ∨ x = 2 := by omega
  all_goals rfl

theorem mask_ofInt {x : Int} (h : 0 ≤ x ∧ x ≤ 255) : ((BitVec.ofInt 8 x).toNat : Int) = x := by
  rw [BitVec.toNat_ofInt]
  omega

/-- A value in the parameter's range is held as it was written (R180, R181). -/
theorem read_write_same (q : Parameters) {id : Nat} {spec : ParamSpec} (hspec : paramSpec id = some spec) {x : Int}
    (hx : spec.range.holds x = true) : (q.write id x).read id = x := by
  unfold paramSpec at hspec
  split at hspec
  all_goals cases hspec
  all_goals simp only [stoppedRefused, liveRefused, liveClamped, ParamRange.holds, Bool.and_eq_true, decide_eq_true_eq,
    List.contains_eq_mem, List.mem_cons, List.not_mem_nil, or_false] at hx
  all_goals simp only [Parameters.write, Parameters.read, Fin.getElem_fin, Vector.getElem_set_self]
  case h_7 => exact code_ofCode_mode hx
  case h_22 => exact mask_ofInt hx
  case h_23 => exact mask_ofInt hx
  case h_28 => exact code_ofCode_policy hx
  case h_29 => exact code_ofCode_policy hx
  all_goals omega

/-- The table of 11.4 has the ids 1 to 37. -/
theorem paramSpec_some_iff (id : Nat) : (∃ spec, paramSpec id = some spec) ↔ 1 ≤ id ∧ id ≤ 37 := by
  constructor
  · rintro ⟨spec, h⟩
    unfold paramSpec at h
    split at h
    all_goals cases h
    all_goals omega
  · rintro ⟨hlo, hhi⟩
    interval_cases id
    all_goals exact ⟨_, rfl⟩

/-! ## What a taken write does at once (R13, R149) -/

/-- The state with a value stored and the generation counter raised (R35, R180). -/
def State.paramStored (s : State) (id : Nat) (v : Int) : State := (s.setParams (s.params.write id v)).bumpGeneration

theorem paramWritten_other {s : State} {id : Nat} (hmode : id ≠ 7) (ha : id ≠ 25) (hb : id ≠ 26) : s.paramWritten id = s := by
  unfold State.paramWritten
  split
  case h_1 => exact absurd rfl hmode
  case h_2 => exact absurd rfl ha
  case h_3 => exact absurd rfl hb
  case h_4 => rfl

theorem modeWritten_changes (s : State) : changesOnly [.odo, .link] s s.modeWritten := by
  unfold State.modeWritten
  split
  · exact changesOnly_trans (clearSlip_changes s) (returnSource_changes _ _)
  · exact clearSlip_changes s

/-- The odometry after an accepted SECONDARY_MODE write (R13). -/
theorem modeWritten_odo (s : State) : s.modeWritten.odo = { s.odo with
    mismatch := 0, agreement := 0, judgedP := 0, judgedS := 0, slip := false
    source := if s.params.secondaryMode = .off then .primary else s.odo.source } := by
  unfold State.modeWritten
  by_cases hoff : s.params.secondaryMode = .off
  · rw [if_pos hoff, if_pos hoff, returnSource_odo, clearSlip_odo]
    rfl
  · rw [if_neg hoff, if_neg hoff, clearSlip_odo]
    rfl

/-- The parameters with the gun offset of a rail written. -/
def Parameters.withGun (q : Parameters) (r : Rail) (v : Int) : Parameters :=
  { q with gunOffset := q.gunOffset.set r v }

/-- A gun offset stored asks for the due test of its rail, which the counter does not enter (R149). -/
theorem gunStored_dueTest (s : State) (r : Rail) (v : Int) : ((s.setParams (s.params.withGun r v)).bumpGeneration).dueTest r =
    ((s.setParams (s.params.withGun r v)).dueTest r).setRun { s.run with generation := s.run.generation + 1 } :=
  dueTest_setRun r (s.setParams (s.params.withGun r v)) _ rfl

/-- The rail whose gun offset a parameter is. -/
def gunRail (id : Nat) : Option Rail :=
  if id = 25 then some .a else if id = 26 then some .b else none

theorem gunRail_some_iff (id : Nat) : (∃ r, gunRail id = some r) ↔ id = 25 ∨ id = 26 := by
  unfold gunRail
  by_cases ha : id = 25
  · simp [ha]
  · by_cases hb : id = 26
    · simp [hb]
    · simp [ha, hb]

/-- The link after a taken write, before its REPLY: the EVENTs of a SECONDARY_MODE write, or the records of the due test of
a gun offset (R13, R149). -/
def State.paramLink (u : State) (id : Nat) (v : Int) : LinkState :=
  match gunRail id with
  | some r => ((u.setParams (u.params.withGun r v)).dueTest r).link
  | none => if id = 7 then u.link.told u.odo.cp
      ((if u.odo.slip = true then [.slip false u.odo.judgedP u.odo.judgedS] else [])
        ++ (if v = 0 ∧ u.odo.source = .secondary then [.source .primary .modeWrite] else []))
    else u.link

/-- The state that a taken write leaves, but for its REPLY. -/
structure State.writtenFrom (t u : State) (id : Nat) (v : Int) : Prop where
  params : t.params = u.params.write id v
  run : t.run = { u.run with generation := u.run.generation + 1 }
  odo : id ≠ 7 → t.odo = u.odo
  cp : t.odo.cp = u.odo.cp
  marker : gunRail id = none → t.marker = u.marker
  gun : ∀ r, gunRail id = some r → t.marker = ((u.setParams (u.params.withGun r v)).dueTest r).marker
  link : t.link = u.paramLink id v

theorem writtenFrom_gun {u : State} {id : Nat} {r : Rail} (v : Int) (hgun : gunRail id = some r)
    (hwrite : u.params.write id v = u.params.withGun r v) (hwritten : (u.paramStored id v).paramWritten id = (u.paramStored id v).dueTest r) :
    ((u.paramStored id v).paramWritten id).writtenFrom u id v := by
  have hstored : (u.paramStored id v).paramWritten id =
      ((u.setParams (u.params.withGun r v)).dueTest r).setRun { u.run with generation := u.run.generation + 1 } := by
    rw [hwritten, State.paramStored, hwrite, gunStored_dueTest]
  have hdue := dueTest_changes (u.setParams (u.params.withGun r v)) r
  have hodo : ((u.setParams (u.params.withGun r v)).dueTest r).odo = u.odo := changesOnly_same hdue .odo (by simp)
  rw [hstored]
  refine ⟨(changesOnly_same hdue .params (by simp)).trans hwrite.symm, rfl, fun _ => hodo, congrArg Odometry.cp hodo,
    fun hnone => absurd (hgun.symm.trans hnone) (by simp), fun q hq => ?_, ?_⟩
  · obtain rfl : r = q := Option.some.inj (hgun.symm.trans hq)
    rfl
  · unfold State.paramLink
    rw [hgun]
    rfl

theorem writtenFrom_mode (u : State) {v : Int} (hv : 0 ≤ v ∧ v ≤ 2) : ((u.paramStored 7 v).paramWritten 7).writtenFrom u 7 v := by
  have hmode := modeWritten_changes (u.paramStored 7 v)
  have hoff : (u.paramStored 7 v).params.secondaryMode = .off ↔ v = 0 := ofCode_off_iff hv
  refine ⟨changesOnly_same hmode .params (by simp), changesOnly_same hmode .run (by simp), fun h => absurd rfl h,
    (congrArg Odometry.cp (modeWritten_odo (u.paramStored 7 v))).trans rfl, fun _ => changesOnly_same hmode .marker (by simp),
    fun r hr => absurd hr (by simp [gunRail]), ?_⟩
  refine (modeWritten_link _).trans ?_
  simp only [hoff]
  rfl

/-- What a taken write leaves, by the parameter written (R13, R148, R149, R180). -/
theorem paramWritten_spec (u : State) {id : Nat} {spec : ParamSpec} (hspec : paramSpec id = some spec) {v : Int}
    (hv : spec.range.holds v = true) : ((u.paramStored id v).paramWritten id).writtenFrom u id v := by
  by_cases ha : id = 25
  · subst ha
    exact writtenFrom_gun v rfl rfl rfl
  by_cases hb : id = 26
  · subst hb
    exact writtenFrom_gun v rfl rfl rfl
  by_cases hmode : id = 7
  · subst hmode
    obtain rfl : stoppedRefused 0 2 = spec := Option.some.inj hspec
    exact writtenFrom_mode u (by simpa [stoppedRefused, ParamRange.holds] using hv)
  · have hnone : gunRail id = none := by simp [gunRail, ha, hb]
    rw [paramWritten_other hmode ha hb]
    refine ⟨rfl, rfl, fun _ => rfl, rfl, fun _ => rfl, fun r hr => absurd (hnone.symm.trans hr) (by simp), ?_⟩
    unfold State.paramLink
    rw [hnone]
    exact (if_neg hmode).symm

/-! ## SET_PARAM and GET_PARAM -/

theorem byte_eq_iff (b : Byte) (n : Nat) (hn : n < 256) : b = BitVec.ofNat 8 n ↔ b.toNat = n := by
  rw [← BitVec.toNat_inj, BitVec.toNat_ofNat, Nat.mod_eq_of_lt hn]

theorem setParam_refused {a : SetParamArgs} {s : State} (h : Sender) {r : Result}
    (hverdict : judgeParam s.run.state a.id.toNat a.value.toInt = .refused r) : setParam h a s = s.refuse h 0x10 r := by
  unfold setParam
  rw [hverdict]

theorem setParam_taken {a : SetParamArgs} {s : State} (h : Sender) {r : Result} {v : Int}
    (hverdict : judgeParam s.run.state a.id.toNat a.value.toInt = .taken r v) : setParam h a s = s.takeParam h a.id r v := by
  unfold setParam
  rw [hverdict]

theorem judgeParam_of_spec {id : Nat} {spec : ParamSpec} (hspec : paramSpec id = some spec) (run : RunState) (x : Int) :
    judgeParam run id x = if spec.stopped = true ∧ run ≠ .stopped then .refused .busy
      else if spec.range.holds x = true then .taken .ok x
      else if spec.clamped = true then .taken .clamped (spec.range.nearest x)
      else .refused .range := by
  unfold judgeParam
  rw [hspec]
  exact if_congr (by simp) rfl rfl

/-- A REPLY depends on the link and CP alone. -/
theorem reply_link_of_cp {u : State} {l : LinkState} {cp : Int} (hlink : u.link = l) (hcp : u.odo.cp = cp) (h : Sender)
    (code : Byte) (x : Result) (bs : List Byte) : (u.reply h code x bs).link = l.sendTo h.node cp (.reply h.tag code x bs) := by
  rw [State.reply_link, hlink, hcp]

/-- The REPLY of a taken write carries the value and the counter (R180). -/
theorem writtenFrom_reply {t u : State} {id : Nat} {v : Int} (hwritten : t.writtenFrom u id v) (h : Sender) (b : Byte) (x : Result) :
    (t.reply h 0x10 x ([b] ++ i32 v ++ t.generationBytes)).link = ((u.setLink (u.paramLink id v)).reply h 0x10 x
      ([b] ++ i32 v ++ u16 (u.run.generation + 1).toNat)).link := by
  rw [reply_link_of_cp hwritten.link hwritten.cp, State.generationBytes, hwritten.run]
  rfl

/-- What a taken write of SECONDARY_MODE leaves in the odometry and the parameter (R13). -/
theorem takeMode_spec (u : State) (h : Sender) (x : Result) (v : Int) : (u.takeParam h 7 x v).odo = { u.odo with
      mismatch := 0, agreement := 0, judgedP := 0, judgedS := 0, slip := false
      source := if SecondaryMode.ofCode v = .off then .primary else u.odo.source }
    ∧ (u.takeParam h 7 x v).params.secondaryMode = .ofCode v :=
  ⟨(modeWritten_odo (u.paramStored 7 v)).trans rfl, congrArg Parameters.secondaryMode
    ((changesOnly_same (modeWritten_changes (u.paramStored 7 v)) .params (by simp)).trans (b := u.params.write 7 v) rfl)⟩

/-- GET_PARAM returns the value held for an id of the table (R181). -/
theorem getParam_reads (h : Sender) (id : Byte) {s : State} (hheld : s.held = false) : exec (.getParam h (.fields id)) s =
    if 1 ≤ id.toNat ∧ id.toNat ≤ 37 then .next ((s.take h 0x11).reply h 0x11 .ok ([id] ++ i32 (s.params.read id.toNat)))
    else .next ((s.take h 0x11).refuse h 0x11 .range) := by
  by_cases hid : 1 ≤ id.toNat ∧ id.toNat ≤ 37
  · obtain ⟨spec, hspec⟩ := (paramSpec_some_iff _).2 hid
    rw [if_pos hid]
    refine exec_fields (owner := getParam h) rfl hheld ?_
    unfold getParam
    rw [hspec]
    rfl
  · rw [if_neg hid]
    refine exec_fields (owner := getParam h) rfl hheld ?_
    unfold getParam
    split
    case h_1 => rfl
    case h_2 spec hspec => exact absurd ((paramSpec_some_iff _).1 ⟨spec, hspec⟩) hid

/-- A SECONDARY_MODE write in STOPPED (R13). -/
theorem modeWrite_taken (h : Sender) {v : Word32} {s : State} (hheld : s.held = false) (hstopped : s.run.state = .stopped)
    (hv : 0 ≤ v.toInt ∧ v.toInt ≤ 2) : answers (.setParam h (.fields { id := 7, value := v })) s fun t =>
      t.odo.mismatch = 0 ∧ t.odo.agreement = 0 ∧ t.odo.slip = false
        ∧ t.odo.source = (if v = 0 then .primary else s.odo.source)
        ∧ t.odo.deltaP = s.odo.deltaP ∧ t.odo.deltaS = s.odo.deltaS ∧ t.odo.cp = s.odo.cp
        ∧ t.odo.judgedP = 0 ∧ t.odo.judgedS = 0
        ∧ t.params.secondaryMode = (if v = 0 then .off else if v = 1 then .monitor else .failover) := by
  have hjudged : judgeParam s.run.state 7 v.toInt = .taken .ok v.toInt := by
    have hholds : (ParamRange.span 0 2).holds v.toInt = true := by simp [ParamRange.holds, hv]
    rw [judgeParam_of_spec (spec := stoppedRefused 0 2) rfl, if_neg (by simp [hstopped])]
    exact if_pos hholds
  have hzero : v.toInt = 0 ↔ v = 0 := by
    rw [← BitVec.toInt_inj]
    rfl
  have hone : v.toInt = 1 ↔ v = 1 := by
    rw [← BitVec.toInt_inj]
    rfl
  have hmode : SecondaryMode.ofCode v.toInt = if v = 0 then .off else if v = 1 then .monitor else .failover := by
    rw [← if_congr hzero rfl rfl, ← if_congr hone rfl rfl]
    exact ofCode_eq hv
  refine answers_command (owner := setParam h) rfl hheld ?_
  rw [show setParam h { id := 7, value := v } (s.take h 0x10) = _ from setParam_taken h hjudged]
  obtain ⟨hodo, hparams⟩ := takeMode_spec (s.take h 0x10) h .ok v.toInt
  rw [hodo, hparams]
  exact ⟨rfl, rfl, rfl, if_congr ((ofCode_off_iff hv).trans hzero) rfl rfl, rfl, rfl, rfl, rfl, rfl, hmode⟩

/-- Settles O45: the verdict by the table, and what a taken write leaves by its parameter. -/
theorem parametersAreWrittenAndRead : Obligations.ParametersAreWrittenAndRead := by
  refine ⟨fun h a s hheld => ?_, fun h id s hheld => ?_, fun h v s hheld hstopped hlo hhi => ?_⟩
  · intro x u tested told taken
    cases hspec : paramSpec a.id.toNat with
    | none =>
      refine exec_fields (owner := setParam h) rfl hheld (setParam_refused (s := s.take h 0x10) h ?_)
      unfold judgeParam
      rw [hspec]
    | some spec =>
      have hid : 1 ≤ a.id.toNat ∧ a.id.toNat ≤ 37 := (paramSpec_some_iff _).1 ⟨spec, hspec⟩
      have hverdict := judgeParam_of_spec hspec s.run.state x
      have htaken : ∀ (result : Result) (v : Int), spec.range.holds v = true →
          judgeParam s.run.state a.id.toNat x = .taken result v → taken result v := by
        intro result v hv hjudged
        have hmode : a.id = 7 ↔ a.id.toNat = 7 := byte_eq_iff a.id 7 (by decide)
        have ha : a.id = 25 ↔ a.id.toNat = 25 := byte_eq_iff a.id 25 (by decide)
        have hb : a.id = 26 ↔ a.id.toNat = 26 := byte_eq_iff a.id 26 (by decide)
        have hwritten := paramWritten_spec u hspec hv
        have howner : setParam h a u = u.takeParam h a.id result v := setParam_taken h hjudged
        have htested : ∀ r, gunRail a.id.toNat = some r → tested v = (u.setParams (u.params.withGun r v)).dueTest r := by
          intro r hr
          unfold gunRail at hr
          by_cases h25 : a.id.toNat = 25
          · obtain rfl : Rail.a = r := Option.some.inj ((if_pos h25).symm.trans hr)
            exact if_pos (ha.2 h25)
          · rw [if_neg h25] at hr
            by_cases h26 : a.id.toNat = 26
            · obtain rfl : Rail.b = r := Option.some.inj ((if_pos h26).symm.trans hr)
              exact if_neg (mt ha.1 h25)
            · exact absurd ((if_neg h26).symm.trans hr) (by simp)
        have hguns : (a.id = 25 ∨ a.id = 26) ↔ ∃ r, gunRail a.id.toNat = some r := by
          rw [ha, hb, gunRail_some_iff]
        have htold : u.paramLink a.id.toNat v = told v := by
          unfold State.paramLink
          cases hgun : gunRail a.id.toNat with
          | some r => exact (congrArg State.link (htested r hgun)).symm.trans (if_pos (hguns.2 ⟨r, hgun⟩)).symm
          | none =>
            have hno : ¬ (a.id = 25 ∨ a.id = 26) := fun hyes => by
              obtain ⟨r, hr⟩ := hguns.1 hyes
              exact absurd (hgun.symm.trans hr) (by simp)
            exact (if_congr hmode.symm rfl rfl).trans (if_neg hno).symm
        have hchanges := changesOnly_trans (changesOnly_mono (take_changes s h 0x10) (by simp)) (setParam_changes h a u)
        refine answers_command (owner := setParam h) rfl hheld ?_
        rw [show setParam h a (s.take h 0x10) = _ from howner] at hchanges ⊢
        refine ⟨?_, fun n hn => ?_, hwritten.run, fun hne => hwritten.odo (mt hmode.2 hne), fun hna hnb => hwritten.marker ?_,
          fun hgun => ?_, ?_, hchanges⟩
        · exact (congrArg (fun q : Parameters => q.read _) hwritten.params).trans (read_write_same _ hspec hv)
        · exact (congrArg (fun q : Parameters => q.read _) hwritten.params).trans (read_write_other _ (by omega) hn v)
        · exact (if_neg (mt ha.2 hna)).trans (if_neg (mt hb.2 hnb))
        · obtain ⟨r, hr⟩ := hguns.1 hgun
          exact (hwritten.gun r hr).trans (congrArg State.marker (htested r hr)).symm
        · exact (writtenFrom_reply hwritten h a.id result).trans (congrArg (fun l : LinkState => ((u.setLink l).reply h 0x10 result
            ([a.id] ++ i32 v ++ u16 (s.run.generation + 1).toNat)).link) htold)
      have hrefused : ∀ r : Result, judgeParam s.run.state a.id.toNat x = .refused r →
          exec (.setParam h (.fields a)) s = .next ((s.take h 0x10).refuse h 0x10 r) := fun r hjudged =>
        exec_fields (owner := setParam h) rfl hheld (setParam_refused (s := s.take h 0x10) h hjudged)
      dsimp only
      split
      case isTrue hbusy => exact hrefused .busy (hverdict.trans (if_pos hbusy))
      case isFalse hopen =>
        split
        case isTrue hholds => exact htaken .ok x hholds (hverdict.trans ((if_neg hopen).trans (if_pos hholds)))
        case isFalse hout =>
          have hjudged := hverdict.trans ((if_neg hopen).trans (if_neg hout))
          split
          case isTrue hclamped =>
            exact htaken .clamped _ (nearest_holds _ _ hspec hclamped x) (hjudged.trans (if_pos hclamped))
          case isFalse hstrict => exact hrefused .range (hjudged.trans (if_neg hstrict))
  · exact getParam_reads h id hheld
  · exact modeWrite_taken h hheld hstopped ⟨hlo, hhi⟩

end Sys2Proof.Machine
end


section
/-! PROOFS. The Zone List commands, REBASE, and cold reset. -/
namespace Sys2Proof.Machine

/-! ## ADD_ZONE (R112–R114) -/

theorem isMute_eq (z : Zone) : z.isMute = decide (z.kind = .mute) := by
  unfold Zone.isMute
  cases z.kind
  all_goals rfl

theorem muteCount_eq (l : ZoneList) : l.muteCount = (l.zones.filter fun z => decide (z.kind = .mute)).length :=
  congrArg (fun p => (l.zones.filter p).length) (funext isMute_eq)

theorem zonePast_iff (s : State) (rails : BitVec 2) (stop : Int) : s.zonePast rails stop = true ↔ s.run.state ≠ .stopped
    ∧ ¬ (holdsRail rails .a = true ∧ (s.windows.get .a).k * (s.params.cellTicks : Int) ≤ stop)
    ∧ ¬ (holdsRail rails .b = true ∧ (s.windows.get .b).k * (s.params.cellTicks : Int) ≤ stop) := by
  unfold State.zonePast State.closeTick
  rw [Bool.and_eq_true, decide_eq_true_iff, Bool.not_eq_true', ← Bool.not_eq_true, Bool.or_eq_true, not_or, Bool.and_eq_true,
    Bool.and_eq_true, decide_eq_true_iff, decide_eq_true_iff]

/-- The list with a zone inserted under the id that it carries (R112, R113). -/
def ZoneList.added (l : ZoneList) (z : Zone) : ZoneList := { zones := insertZone z l.zones, idCounter := z.id + 1 }

/-- Settles O49: the tests in their order, and the zone inserted under a fresh id. -/
theorem zoneIsAdded : Obligations.ZoneIsAdded := by
  intro h a s hheld rails ahead
  have hranges : (rails = 0 ∨ a.groupMask = 0 ∨ a.stop.toInt < a.start.toInt) ↔
      (rails = 0 ∨ a.groupMask = 0) ∨ a.stop.toInt < a.start.toInt := or_assoc.symm
  split
  case isTrue hrange =>
    refine exec_fields (owner := addZone h) rfl hheld ?_
    rcases hranges.1 hrange with hmask | hends
    · exact if_pos hmask
    · exact (ite_eq_left_iff.2 fun _ => if_pos hends)
  case isFalse hfits =>
    have hmask : ¬ (rails = 0 ∨ a.groupMask = 0) := fun hbad => hfits (hranges.2 (.inl hbad))
    have hends : ¬ a.stop.toInt < a.start.toInt := fun hbad => hfits (hranges.2 (.inr hbad))
    split
    case isTrue hpast =>
      exact exec_fields (owner := addZone h) rfl hheld
        ((if_neg hmask).trans ((if_neg hends).trans (if_pos ((zonePast_iff s rails a.stop.toInt).2 hpast))))
    case isFalse hahead =>
      have hreaches : ¬ (s.take h 0x20).zonePast rails a.stop.toInt = true := mt (zonePast_iff s rails a.stop.toInt).1 hahead
      split
      case isTrue hfull =>
        exact exec_fields (owner := addZone h) rfl hheld ((if_neg hmask).trans ((if_neg hends).trans ((if_neg hreaches).trans
          (if_pos (hfull.trans (muteCount_eq s.zones).ge)))))
      case isFalse hroom =>
        refine answers_command (owner := addZone h) rfl hheld ?_
        have htaken : addZone h a (s.take h 0x20) = ((s.take h 0x20).setZones
            (s.zones.added (muteZone s.zones.nextId a h.node))).reply h 0x20 .ok [s.zones.nextId] :=
          (if_neg hmask).trans ((if_neg hends).trans ((if_neg hreaches).trans
            (if_neg (fun hfull => hroom (le_of_le_of_eq hfull (muteCount_eq s.zones))))))
        have hchanges := changesOnly_trans (changesOnly_mono (take_changes s h 0x20) (by simp)) (addZone_changes h a (s.take h 0x20))
        obtain ⟨before, after, hsplit, hinserted⟩ := insertZone_split (muteZone s.zones.nextId a h.node) s.zones.zones
        rw [htaken] at hchanges ⊢
        exact ⟨before, after, _, hsplit, hinserted, rfl, nextId_fresh s.zones, rfl, reply_link_congr rfl rfl _ _ _ _, hchanges⟩

/-! ## CANCEL_ZONE, LIST_ZONES and the SUSPEND zone (R115–R119) -/

/-- A search that one member alone answers finds it. -/
theorem find_of_unique {α : Type} {p : α → Bool} {l : List α} {x : α} (hx : x ∈ l) (hp : p x = true)
    (hunique : ∀ y ∈ l, p y = true → y = x) : l.find? p = some x := by
  cases hfind : l.find? p with
  | none => exact absurd hp (List.find?_eq_none.1 hfind x hx)
  | some y => rw [hunique y (List.mem_of_find?_eq_some hfind) (List.find?_some hfind)]

theorem cancelZone_absent {s : State} (h : Sender) {id : Byte} (habsent : ∀ z ∈ s.zones.zones, z.id ≠ id) :
    cancelZone h id s = s.refuse h 0x21 .notFound := by
  have hnone : s.zones.zones.find? (fun z => z.id == id) = none :=
    List.find?_eq_none.2 fun z hz hid => habsent z hz (by simpa using hid)
  unfold cancelZone
  rw [hnone]

theorem cancelZone_held {s : State} (h : Sender) {id : Byte} {z : Zone} (hz : z ∈ s.zones.zones) (hid : z.id = id)
    (hunique : ∀ y ∈ s.zones.zones, y.id = id → y = z) : cancelZone h id s =
      if z.kind = .suspend then s.refuse h 0x21 .state
      else (s.setZones { s.zones with zones := s.zones.zones.filter fun y => y.id != id }).reply h 0x21 .ok [] := by
  have hfind : s.zones.zones.find? (fun z => z.id == id) = some z :=
    find_of_unique hz (by simpa using hid) fun y hy hyid => hunique y hy (by simpa using hyid)
  unfold cancelZone
  rw [hfind]
  dsimp only
  rw [isMute_eq]
  cases z.kind
  all_goals rfl

/-- The bytes of a zone as LIST_ZONES answers them (R117). -/
theorem zone_bytes_eq (absent : Int) (z : Zone) : z.bytes absent = [z.id] ++ u8 (match z.kind with | .mute => 0 | .suspend => 1)
    ++ u8 z.rails.toNat ++ [z.groups] ++ i32 z.start
    ++ (match z.stop with | some e => i32 e ++ u8 1 | none => i32 absent ++ u8 0)
    ++ u8 (match z.node with | none => 0 | some .n1 => 1 | some .n2 => 2 | some .n3 => 3) := by
  have hnode : (match z.node with | none => 0 | some n => Node.num n) =
      (match z.node with | none => 0 | some .n1 => 1 | some .n2 => 2 | some .n3 => 3) := by
    rcases z.node with _ | _ | _
    all_goals rfl
  have hkind : (if z.isMute then 0 else 1) = (match z.kind with | .mute => 0 | .suspend => 1) := by
    unfold Zone.isMute
    cases z.kind
    all_goals rfl
  unfold Zone.bytes
  rw [hkind]
  cases z.stop with
  | none => exact congrArg (_ ++ u8 ·) hnode
  | some e => exact congrArg (_ ++ u8 ·) hnode

theorem suspendZone_none {l : ZoneList} (h : ∀ z ∈ l.zones, z.kind = .mute) : l.suspendZone = none :=
  List.find?_eq_none.2 fun z hz => by simp [isMute_eq, h z hz]

theorem suspendZone_some {l : ZoneList} {z : Zone} (hz : z ∈ l.zones) (hkind : z.kind = .suspend)
    (hunique : ∀ y ∈ l.zones, y.kind = .suspend → y = z) : l.suspendZone = some z := by
  refine find_of_unique hz (by simp [isMute_eq, hkind]) fun y hy hsuspend => hunique y hy ?_
  rw [isMute_eq] at hsuspend
  cases hy' : y.kind with
  | mute => simp [hy'] at hsuspend
  | suspend => rfl

theorem muteFilter_eq (l : List Zone) : l.filter Zone.isMute = l.filter fun z => decide (z.kind = .mute) :=
  congrArg (fun p => l.filter p) (funext isMute_eq)

theorem finished_eq (stop : Int) : (fun y : Zone => if y.isMute then y else { y with stop := some stop }) =
    fun y : Zone => if y.kind = .suspend then { y with stop := some stop } else y := by
  funext y
  rw [isMute_eq]
  cases y.kind
  all_goals rfl

/-- An onset with the SUSPEND slot empty opens the zone (R118). -/
theorem beginSuspension_empty {s : State} (hnone : s.zones.suspendZone = none) (c : SuspendBeginCause) :
    s.beginSuspension c = ((s.setRun { s.run with suspension := true }).setZones
      (s.zones.added (newSuspend s.zones.nextId s.suspendStart))).event (.suspendBegin s.zones.nextId s.suspendStart c false) := by
  unfold State.beginSuspension
  dsimp only
  rw [State.setRun_zones, hnone]
  rfl

/-- The list with its SUSPEND zone replaced (R118). -/
def ZoneList.reopened (l : ZoneList) (z : Zone) : ZoneList := { l with zones := insertZone z (l.zones.filter Zone.isMute) }

/-- The list with its SUSPEND zone finished (R119). -/
def ZoneList.finished (l : ZoneList) (stop : Int) : ZoneList :=
  { l with zones := l.zones.map fun y => if y.isMute then y else { y with stop := some stop } }

/-- An onset with a finished SUSPEND zone opens it again (R118). -/
theorem beginSuspension_again {s : State} {z : Zone} (hsome : s.zones.suspendZone = some z) (c : SuspendBeginCause) :
    s.beginSuspension c = ((s.setRun { s.run with suspension := true }).setZones
      (s.zones.reopened { z with start := min z.start s.suspendStart, stop := none })).event
        (.suspendBegin z.id (min z.start s.suspendStart) c true) := by
  unfold State.beginSuspension
  dsimp only
  rw [State.setRun_zones, hsome]
  rfl

theorem endSuspension_empty {s : State} (hnone : s.zones.suspendZone = none) (c : SuspendEndCause) :
    s.endSuspension c = s.setRun { s.run with suspension := false } := by
  unfold State.endSuspension
  dsimp only
  rw [State.setRun_zones, hnone]

/-- The end of a suspension finishes the SUSPEND zone (R119). -/
theorem endSuspension_open {s : State} {z : Zone} (hsome : s.zones.suspendZone = some z) (c : SuspendEndCause) :
    s.endSuspension c = ((s.setRun { s.run with suspension := false }).setZones
      (s.zones.finished (s.suspendStop z.start))).event (.suspendEnd z.id z.start (s.suspendStop z.start) c) := by
  unfold State.endSuspension
  dsimp only
  rw [State.setRun_zones, hsome]
  rfl

theorem expireZones_changes (s : State) : changesOnly [.zones] s s.expireZones := setZones_changes _ _

/-- Settles O50: the commands by the zone found, expiry zone by zone, and the SUSPEND zone by its slot. -/
theorem zonesAreCancelledAndListed : Obligations.ZonesAreCancelledAndListed := by
  refine ⟨fun h id s hheld => ⟨fun habsent => ?_, fun z hz hid hunique => ?_⟩, fun h s hheld => ?_, fun s => ?_, fun s => ?_⟩
  · exact exec_fields (owner := cancelZone h) rfl hheld (cancelZone_absent (s := s.take h 0x21) h habsent)
  · rw [exec_fields (owner := cancelZone h) rfl hheld (cancelZone_held (s := s.take h 0x21) h hz hid hunique)]
    exact apply_ite Host.Outcome.next _ _ _
  · refine answers_command (owner := listZones h) rfl hheld ⟨changesOnly_trans (changesOnly_mono (take_changes s h 0x22) (by simp))
      (listZones_changes h () _), (s.take h 0x22).freeInt 0, ?_⟩
    exact congrArg (fun f : Zone → List Byte => ((s.take h 0x22).reply h 0x22 .ok
      ([s.zones.idCounter, BitVec.ofNat 8 s.zones.zones.length] ++ s.zones.zones.flatMap f)).link)
      (funext (zone_bytes_eq ((s.take h 0x22).freeInt 0)))
  · refine ⟨expireZones_changes s, rfl, fun z => !s.expired z, rfl, fun z => ?_⟩
    rw [Bool.not_eq_false']
    exact expired_iff s z
  · intro start others
    refine ⟨fun hmute => ⟨fun c => ⟨_, rfl, ?_⟩, fun c => ?_⟩, fun z hz hkind hunique => ⟨fun c => ?_, fun c => ?_⟩⟩
    · rw [beginSuspension_empty (suspendZone_none hmute)]
      exact ⟨rfl, rfl⟩
    · rw [endSuspension_empty (suspendZone_none hmute)]
      rfl
    · rw [beginSuspension_again (suspendZone_some hz hkind hunique), ZoneList.reopened, muteFilter_eq]
      exact ⟨rfl, rfl⟩
    · rw [endSuspension_open (suspendZone_some hz hkind hunique), ZoneList.finished, finished_eq]
      exact ⟨rfl, rfl⟩

/-! ## REBASE (R15, R122) -/

/-- A REBASE fits where every coordinate that it moves stays in range (R15). -/
theorem canRebase_iff (s : State) (delta : Int) : s.canRebase delta = true ↔
    (tickMin ≤ s.odo.cp - delta ∧ s.odo.cp - delta ≤ tickMax) ∧ (tickMin ≤ s.odo.hw - delta ∧ s.odo.hw - delta ≤ tickMax)
      ∧ (∀ z ∈ s.zones.zones, (tickMin ≤ z.start - delta ∧ z.start - delta ≤ tickMax)
          ∧ ∀ e, z.stop = some e → tickMin ≤ e - delta ∧ e - delta ≤ tickMax)
      ∧ ∀ r : Rail, ∀ e ∈ (s.marker.engines.get r).queue, tickMin ≤ e.target - delta ∧ e.target - delta ≤ tickMax := by
  have hrails : ∀ p : Rail → Prop, (∀ r, p r) ↔ p .a ∧ p .b :=
    fun p => ⟨fun h => ⟨h .a, h .b⟩, fun h r => by cases r; exacts [h.1, h.2]⟩
  have hstop : ∀ (z : Zone) (e : Int), e ∈ z.stop.toList ↔ z.stop = some e := fun z e => Option.mem_toList
  unfold State.canRebase State.coordinates
  simp only [List.all_append, List.all_cons, List.all_flatMap, List.all_map, Bool.and_eq_true, List.all_eq_true, inTickRange_iff,
    hrails, hstop, Function.comp_apply, and_assoc]
  exact Iff.rfl

/-- Settles O44: the refusals, and every coordinate moved before LIMIT follows. -/
theorem rebaseMovesCoordinates : Obligations.RebaseMovesCoordinates := by
  intro h delta s hheld fits
  split
  case isTrue hbusy => exact exec_fields (owner := rebase h) rfl hheld (if_pos hbusy)
  case isFalse hstopped =>
    intro all
    have hall : (s.take h 0x30).canRebase delta.toInt = true ↔ all := canRebase_iff s delta.toInt
    refine ⟨fun hout => exec_fields (owner := rebase h) rfl hheld ((if_neg hstopped).trans (if_neg (mt hall.1 hout))), fun hin => ?_⟩
    refine answers_command (owner := rebase h) rfl hheld ?_
    have hchanges := changesOnly_trans (changesOnly_mono (take_changes s h 0x30) (by simp)) (rebase_changes h delta (s.take h 0x30))
    have htaken : rebase h delta (s.take h 0x30) = (((s.take h 0x30).moveBy delta.toInt).followLimit).reply h 0x30 .ok
        (i32 ((s.take h 0x30).moveBy delta.toInt).followLimit.odo.cp) := (if_neg hstopped).trans (if_pos (hall.2 hin))
    have hodo := followLimit_odo ((s.take h 0x30).moveBy delta.toInt)
    have hfollowed := followLimit_changes ((s.take h 0x30).moveBy delta.toInt)
    have hmarker := changesOnly_same hfollowed .marker (by simp)
    have hlink := followLimit_link ((s.take h 0x30).moveBy delta.toInt)
    rw [htaken] at hchanges ⊢
    refine ⟨hodo, changesOnly_same hfollowed .zones (by simp), fun r => ?_, (congrArg Marker.sprays hmarker).trans rfl,
      (congrArg Marker.lead hmarker).trans rfl, ?_, hchanges⟩
    · refine (congrArg (fun m : Marker => m.engines.get r) hmarker).trans ?_
      cases r
      all_goals rfl
    · rw [hodo]
      exact reply_link_of_cp hlink (congrArg Odometry.cp hodo) _ _ _ _

/-! ## Cold reset (R19, R31) -/

theorem exec_held {i : Instr} {s : State} {f : State → State} (hexec : exec i s = .next (s.unlessHeld f)) (hheld : s.held = true) :
    exec i s = .next s :=
  hexec.trans (congrArg Host.Outcome.next (unlessHeld_held hheld f))

/-- The table entries after cold reset (R72, R87, R144). -/
theorem cold_entries (p : Fin 32) : (Evaluator.cold.runs.a[p]).length = 0 ∧ (Evaluator.cold.patterns[p]).enabled = false
    ∧ ((Vector.replicate 32 Probe.cold)[p]).enabled = false ∧ ((Vector.replicate 32 Probe.cold)[p]).delay = 0
    ∧ ∀ g : Fin 4, (((Vector.replicate 32 Probe.cold)[p]).gates[g]).role = .off
      ∧ (((Vector.replicate 32 Probe.cold)[p]).gates[g]).threshold = 255 := by
  have hrun : Evaluator.cold.runs.a[p] = .closed := Vector.getElem_replicate p.isLt
  have hpattern : Evaluator.cold.patterns[p] = .cold := Vector.getElem_replicate p.isLt
  have hprobe : (Vector.replicate 32 Probe.cold)[p] = .cold := Vector.getElem_replicate p.isLt
  have hgate : ∀ g : Fin 4, Probe.cold.gates[g] = .cold := fun g => Vector.getElem_replicate g.isLt
  rw [hrun, hpattern, hprobe]
  refine ⟨rfl, rfl, rfl, rfl, fun g => ?_⟩
  rw [hgate]
  exact ⟨rfl, rfl⟩

/-- Settles O3, part by part: what holds while held, RESET_N asserted, and the state that its release leaves. -/
theorem coldResetHoldsAndReleases : Obligations.ColdResetHoldsAndReleases := by
  refine ⟨fun i s hheld hrelease hassert => ?_, fun s => ?_, fun l s => ?_⟩
  · cases i
    case resetRelease l => exact absurd rfl (hrelease l)
    case resetNAsserted => exact absurd rfl hassert
    all_goals exact exec_held rfl hheld
  · refine answers_next (t := resetNAsserted s) rfl ⟨rfl, rfl, rfl, fun b => ?_⟩
    cases b
    case held => exact .inl (by simp)
    case marker => exact .inl (by simp)
    all_goals exact .inr rfl
  · refine answers_next (t := State.cold l s.freeCtr s.pending) rfl ?_
    have hring : ∀ i : Fin 64, (Sequencer.cold.ring[i]).outstanding = false :=
      fun i => congrArg FiringRecord.outstanding (Vector.getElem_replicate i.isLt)
    have hsteps : ∀ k : Fin 16, Sequencer.cold.steps[k] = { probeSet := 0, listen := 100 } := fun k => Vector.getElem_replicate k.isLt
    have hcoupling : ∀ p : Fin 16, Lane.cold.coupling[p] = { state := .unknown, absent := 0, present := 0 } :=
      fun p => Vector.getElem_replicate p.isLt
    have hsprays : ∀ n : Fin 7, Marker.cold.sprays[n] =
        { dashCount := 1, dashLength := 40, gapLength := 40, colour := false, purge := true } :=
      fun n => Vector.getElem_replicate n.isLt
    refine ⟨rfl, rfl, rfl, rfl, rfl, rfl, rfl, rfl, rfl, rfl, rfl, rfl, rfl, rfl, rfl, rfl, rfl, rfl, rfl, rfl, rfl, rfl,
      rfl, rfl, rfl, rfl, rfl, rfl, rfl, rfl, rfl, hring, fun r => ?_, hsteps, rfl, rfl, rfl, rfl, rfl, rfl, rfl,
      fun r => ?_, rfl, rfl, hsprays, rfl, rfl, rfl, rfl, rfl, rfl, rfl, rfl, rfl, rfl, rfl, rfl, rfl, fun n => ?_,
      rfl, rfl, rfl, fun n => ?_⟩
    · cases r
      all_goals exact ⟨rfl, rfl, rfl, rfl, rfl, rfl, rfl, rfl⟩
    · cases r
      all_goals exact ⟨rfl, rfl, hcoupling, rfl, rfl, rfl, rfl, rfl, rfl, rfl, rfl, rfl, rfl, rfl, cold_entries⟩
    · cases n
      all_goals exact ⟨rfl, rfl, rfl, rfl, rfl, rfl⟩
    · cases n
      all_goals exact ⟨rfl, rfl, rfl⟩

/-- Settles O58: each block at reset. -/
theorem resetIsSound : Obligations.ResetIsSound := by
  have hengine : Engine.cold.valvesAgree := ⟨fun h => absurd h (by decide), rfl⟩
  have hwindow : Window.cold.wf = true ∧ Window.cold.bounded := ⟨rfl, fun x hx => absurd hx List.not_mem_nil⟩
  have htail : Window.cold.tailAligned := ⟨by decide, rfl⟩
  refine ⟨resetRelease_agrees, ⟨hengine, hengine⟩, ⟨hwindow.1, hwindow.1, hwindow.2, hwindow.2⟩, ⟨htail, htail⟩,
    ⟨by decide, by decide, List.Pairwise.nil, fun z hz => absurd hz List.not_mem_nil⟩, ⟨queueSound_nil, queueSound_nil⟩,
    fun i hi => ?_, by unfold queueMemorySound; decide⟩
  have hfree : (State.reset.seq.ring[i]).outstanding = false := congrArg FiringRecord.outstanding (Vector.getElem_replicate _)
  exact absurd (hfree.symm.trans hi) Bool.false_ne_true

end Sys2Proof.Machine
end


section
/-! PROOFS. What every command leaves of the configuration, and the table of run states. -/
namespace Sys2Proof.Machine

/-! ## The configuration under every command (R34, R35) -/

/-- The steps, the patterns, the spray patterns and the generation counter are the same in two states. -/
def tablesKept (s t : State) : Prop := t.seq.steps = s.seq.steps ∧ t.eval.patterns = s.eval.patterns
  ∧ t.marker.sprays = s.marker.sprays ∧ t.run.generation = s.run.generation

namespace TablesKept

theorem refl (s : State) : tablesKept s s := ⟨rfl, rfl, rfl, rfl⟩

theorem trans {s t u : State} (h : tablesKept s t) (k : tablesKept t u) : tablesKept s u := by
  obtain ⟨hsteps, hpatterns, hsprays, hcount⟩ := h
  obtain ⟨ksteps, kpatterns, ksprays, kcount⟩ := k
  exact ⟨ksteps.trans hsteps, kpatterns.trans hpatterns, ksprays.trans hsprays, kcount.trans hcount⟩

theorem of_config {s t : State} (h : sameConfig s t) : tablesKept s t := by
  obtain ⟨-, -, hsteps, hpatterns, hsprays, hcount, -⟩ := h
  exact ⟨hsteps, hpatterns, hsprays, hcount⟩

theorem of_changes {bs : List Block} {s t : State} (h : changesOnly bs s t) (hseq : Block.seq ∉ bs) (heval : Block.eval ∉ bs)
    (hmarker : Block.marker ∉ bs) (hrun : Block.run ∉ bs) : tablesKept s t :=
  ⟨congrArg Sequencer.steps (changesOnly_same h .seq hseq), congrArg Evaluator.patterns (changesOnly_same h .eval heval),
    congrArg Marker.sprays (changesOnly_same h .marker hmarker), congrArg RunControl.generation (changesOnly_same h .run hrun)⟩

/-- A part that holds no configuration comes after the others. -/
theorem next {s t u : State} (h : sameConfig t u) (k : tablesKept s t) : tablesKept s u := trans k (of_config h)

/-! ### Odometry and sequencer -/

theorem encoderTick (e : Encoder) (d : Direction) (s : State) : tablesKept s (encoderTick e d s) := by
  unfold Machine.encoderTick
  dsimp only
  split
  · exact of_config (SameConfig.trans ⟨rfl, rfl, rfl, rfl, rfl, rfl, rfl⟩ (SameConfig.sourceTick _ d))
  · exact refl s

theorem standstillSet (s : State) : tablesKept s (standstillSet s) := by
  unfold Machine.standstillSet
  split
  · exact refl s
  · have hlead : ∀ u : State, tablesKept s u → tablesKept s u.updateLead := fun u hu => trans hu (refl u)
    refine next (SameConfig.dueTests _) (hlead _ (next (SameConfig.settle _) ?_))
    exact refl s

theorem speedIntervalEnd (s : State) : tablesKept s (speedIntervalEnd s) :=
  next (SameConfig.dueTests (State.updateLead _)) (refl s)

theorem judged (s : State) (x : SuspendBeginCause) (y : SuspendEndCause) :
    tablesKept s (s.judgeSuspension x y).settleKeepAlive :=
  of_config (SameConfig.trans (SameConfig.judge s x y) (SameConfig.settle _))

theorem liftSample (v : Bool) (s : State) : tablesKept s (liftSample v s) := by
  unfold Machine.liftSample State.acceptLift
  dsimp only
  split
  · refine trans ?_ (judged _ _ _)
    split
    · exact trans ⟨rfl, rfl, rfl, rfl⟩ (of_config (SameConfig.mark _))
    · exact refl s
  · exact refl s

theorem keepaliveTrigger (s : State) : tablesKept s (keepaliveTrigger s) := by
  unfold Machine.keepaliveTrigger
  dsimp only
  split
  · split
    · exact trans ⟨rfl, rfl, rfl, rfl⟩ (of_config (SameConfig.beginCycle (s.setSeq { s.seq with keepAliveTimer := 0 }) _))
    · exact refl s
  · exact refl s

theorem endCycle (s : State) : tablesKept s s.endCycle := by
  have hidle : tablesKept s s.settleOverspeed.cycleIdle := by
    unfold State.settleOverspeed
    split
    · exact refl s
    · exact refl s
  unfold State.endCycle
  dsimp only
  split
  · exact trans hidle (of_config (SameConfig.beginCycle _ _))
  · exact hidle

theorem stepTimerExpiry (s : State) : tablesKept s (stepTimerExpiry s) := by
  unfold Machine.stepTimerExpiry
  split
  · exact refl s
  · split
    · exact of_config (SameConfig.beginStep s _)
    · exact endCycle s

theorem firingRecordTimeout (i : Fin 64) (s : State) : tablesKept s (firingRecordTimeout i s) := by
  unfold Machine.firingRecordTimeout
  split
  · have htimed := of_changes (orderTimedOut_changes (s.freeSlot i) (s.seq.ring[i]).lane) (by simp) (by simp) (by simp) (by simp)
    exact trans htimed (of_changes (judgeRelease_changes _ _) (by simp) (by simp) (by simp) (by simp))
  · exact refl s

theorem completeRecord (s : State) (i : Fin 64) : tablesKept s (s.completeRecord i) := by
  unfold State.completeRecord
  split
  · exact trans (t := (s.freeSlot i).orderAnswered (s.seq.ring[i]).lane) ⟨rfl, rfl, rfl, rfl⟩
      (of_changes (judgeRelease_changes _ _) (by simp) (by simp) (by simp) (by simp))
  · exact refl s

theorem report (r : Rail) (tag probe : Byte) (xs : Vector GateResult 4) (s : State) : tablesKept s (report r tag probe xs s) := by
  unfold Machine.report
  dsimp only
  split
  case h_4 =>
    refine trans (trans (trans ?_ (of_changes (observeCoupling_changes (s.receive (ringSlot tag) _) _ _ _ _) (by simp) (by simp)
      (by simp) (by simp))) (of_changes (handIfAdmitted_changes _ _ _ _ _) (by simp) (by simp) (by simp) (by simp)))
      (completeRecord _ _)
    exact ⟨rfl, rfl, rfl, rfl⟩
  all_goals exact refl s

theorem drain (s : State) : tablesKept s (drain s) := by
  unfold Machine.drain
  split
  · refine trans (of_config (SameConfig.trans (SameConfig.drainRail s .a) (SameConfig.drainRail _ .b))) ?_
    have hend : ∀ u : State, tablesKept u u.drainEnd := fun u =>
      trans (of_changes (changesOnly_trans (laneDown_changes u .a) (laneDown_changes _ .b)) (by simp) (by simp) (by simp) (by simp))
        ⟨rfl, rfl, rfl, rfl⟩
    exact hend _
  · exact refl s

/-! ### Marker engines -/

theorem headTaken (r : Rail) (s : State) : tablesKept s (headTaken r s) := by
  unfold Machine.headTaken
  split
  · split
    · split
      · exact next (SameConfig.dueTest _ _) (refl s)
      · split
        · exact refl s
        · exact next (SameConfig.dueTest _ _) (refl s)
    · exact refl s
  · exact refl s

theorem pullinEnd (r : Rail) (s : State) : tablesKept s (pullinEnd r s) := by
  unfold Machine.pullinEnd
  split
  · exact refl s
  · exact refl s

theorem holdPulsePeriod (r : Rail) (s : State) : tablesKept s (holdPulsePeriod r s) := by
  unfold Machine.holdPulsePeriod
  split
  · split
    · exact refl s
    · exact refl s
  · exact refl s

theorem holdEnd (r : Rail) (s : State) : tablesKept s (holdEnd r s) := by
  unfold Machine.holdEnd
  split
  · split
    · exact refl s
    · exact of_config (SameConfig.afterDashes s r _)
  · exact refl s

theorem gapEnd (r : Rail) (s : State) : tablesKept s (gapEnd r s) := by
  unfold Machine.gapEnd
  split
  · exact refl s
  · exact refl s

theorem purgeEnd (r : Rail) (s : State) : tablesKept s (purgeEnd r s) := by
  unfold Machine.purgeEnd
  split
  · exact of_config (SameConfig.beginRecover s r _)
  · exact refl s

theorem recoverEnd (r : Rail) (s : State) : tablesKept s (recoverEnd r s) := by
  unfold Machine.recoverEnd
  split
  · exact of_config (SameConfig.enterIdle s r)
  · exact refl s

theorem resumeRetry (s : State) (r : Rail) : tablesKept s (s.resumeRetry r) := by
  unfold State.resumeRetry
  split
  · exact of_config (SameConfig.enterIdle s r)
  · exact of_config (SameConfig.trans (SameConfig.setQueue s r _) (SameConfig.enterIdle _ r))

theorem resumeSkip (s : State) (r : Rail) : tablesKept s (s.resumeSkip r) := by
  unfold State.resumeSkip
  split
  · exact of_config (SameConfig.enterIdle s r)
  · exact of_config (SameConfig.trans (SameConfig.trans (SameConfig.setQueue s r _) (SameConfig.emit _ _)) (SameConfig.enterIdle _ r))

theorem markerResume (h : Sender) (a : MarkerResumeArgs) (s : State) : tablesKept s (markerResume h a s) := by
  unfold Machine.markerResume
  split
  · exact refl s
  · split
    · exact refl s
    · split
      · dsimp only
        refine trans ?_ (of_config (SameConfig.reply _ _ _ _ _))
        split
        · exact resumeRetry s _
        · exact resumeSkip s _
      · exact refl s

theorem markerTest (h : Sender) (a : MarkerTestArgs) (s : State) : tablesKept s (markerTest h a s) := by
  unfold Machine.markerTest
  split
  · split
    · exact refl s
    · exact refl s
  · exact refl s

theorem markerCancel (h : Sender) (b : Byte) (s : State) : tablesKept s (markerCancel h b s) := by
  have hall : ∀ (r : Rail) (es : List MarkerEntry) (u : State), tablesKept u (cancelAll r es u) := by
    intro r es
    induction es with
    | nil => exact refl
    | cons e es ih => exact fun u => trans (of_config (SameConfig.emit u _)) (ih _)
  have hengine : ∀ (u : State) (r : Rail), tablesKept u (u.cancelEngine r) := by
    intro u r
    unfold State.cancelEngine
    split
    case h_4 => exact of_config (SameConfig.enterIdle u r)
    case h_5 => exact refl u
    all_goals exact of_config (SameConfig.afterDashes u r _)
  unfold Machine.markerCancel
  split
  · exact refl s
  · exact trans (trans (trans (of_config (SameConfig.setQueue s _ _)) (hall _ _ _)) (hengine _ _)) (of_config (SameConfig.reply _ _ _ _ _))

/-! ### Run control and resets -/

theorem startRun (h : Sender) (s : State) : tablesKept s (s.startRun h) := by
  have hvalues : tablesKept s s.startValues := by
    obtain ⟨-, hchanges⟩ := startOdometry_spec s
    exact trans (of_changes hchanges (by simp) (by simp) (by simp) (by simp)) ⟨rfl, rfl, rfl, rfl⟩
  have hlane : ∀ (u : State) (r : Rail), tablesKept u (u.startLane r) := fun u r => by
    obtain ⟨-, -, hchanges⟩ := startLane_lanes u r
    exact of_changes hchanges (by simp) (by simp) (by simp) (by simp)
  exact trans (trans (trans (trans (trans hvalues (of_config (SameConfig.event _ _))) (of_config (SameConfig.judge _ _ _))) (hlane _ .a))
    (hlane _ .b)) (of_config (SameConfig.settle _))

theorem changeRun (s : State) (h : Sender) (x : RunState) : tablesKept s (s.changeRun h x) := ⟨rfl, rfl, rfl, rfl⟩

theorem pauseRun (h : Sender) (s : State) : tablesKept s (pauseRun h () s) := by
  unfold Machine.pauseRun
  split
  · exact next (SameConfig.reply _ _ _ _ _) (trans (trans (of_config (SameConfig.mark s)) (changeRun _ h .paused)) (judged _ _ _))
  · exact refl s

theorem resumeRun (h : Sender) (s : State) : tablesKept s (resumeRun h () s) := by
  unfold Machine.resumeRun
  split
  · exact next (SameConfig.reply _ _ _ _ _) (trans (changeRun s h .running) (judged _ _ _))
  · exact refl s

theorem endRun (h : Sender) (s : State) : tablesKept s (endRun h () s) := by
  have htaken : tablesKept s (s.endRunTaken h) :=
    trans (next (SameConfig.reply _ _ _ _ _) (trans (trans (next (SameConfig.mark s.recordEndK) (refl s)) (changeRun _ h .draining))
      (judged _ _ _))) (of_changes (judgeDrain_changes _) (by simp) (by simp) (by simp) (by simp))
  unfold Machine.endRun
  split
  · exact htaken
  · exact htaken
  · exact refl s

theorem rebase (h : Sender) (delta : Word32) (s : State) : tablesKept s (rebase h delta s) := by
  unfold Machine.rebase
  split
  · exact refl s
  · split
    · have hmoved : tablesKept s (s.moveBy delta.toInt) := ⟨rfl, rfl, rfl, rfl⟩
      exact next (SameConfig.reply _ _ _ _ _) (next (SameConfig.followLimit _) hmoved)
    · exact refl s

/-- A command keeps the tables where its owner does. -/
theorem command {α : Type} {s : State} {m : Sender} {code : Byte} {ps : Params α} {owner : α → State → State}
    (howner : ∀ (a : α) (t : State), tablesKept t (owner a t)) : tablesKept s (s.command m code ps owner) :=
  command_keeps (p := tablesKept s) (refl s) (fun h => h) (fun _ _ h => h) fun a t h => trans h (howner a t)

theorem exec (i : Instr) (s t : State) (h : exec i s = .next t)
    (hparam : ∀ m p, i ≠ .setParam m p) (hprobe : ∀ m p, i ≠ .writeProbe m p) (hstep : ∀ m p, i ≠ .writeStep m p)
    (hpattern : ∀ m p, i ≠ .writePattern m p) (hspray : ∀ m p, i ≠ .writeSpray m p) (hrelease : ∀ l, i ≠ .resetRelease l) :
    tablesKept s t := by
  have edge : ∀ {f : State → State}, Machine.exec i s = .next (s.unlessHeld f) → tablesKept s (f s) → tablesKept s t :=
    fun hexec hf => exec_elim h hexec (unlessHeld_keeps (refl s) hf)
  cases i with
  | setParam m p => exact absurd rfl (hparam m p)
  | writeProbe m p => exact absurd rfl (hprobe m p)
  | writeStep m p => exact absurd rfl (hstep m p)
  | writePattern m p => exact absurd rfl (hpattern m p)
  | writeSpray m p => exact absurd rfl (hspray m p)
  | resetRelease l => exact absurd rfl (hrelease l)
  | resetNAsserted => exact exec_elim h rfl (refl s)
  | encoderTick e d => exact edge rfl (encoderTick e d s)
  | standstillSet => exact edge rfl (standstillSet s)
  | speedIntervalEnd => exact edge rfl (speedIntervalEnd s)
  | liftSample v => exact edge rfl (liftSample v s)
  | keepaliveTrigger => exact edge rfl (keepaliveTrigger s)
  | stepTimerExpiry => exact edge rfl (stepTimerExpiry s)
  | firingRecordTimeout j => exact edge rfl (firingRecordTimeout j s)
  | report r tag probe xs => exact edge rfl (report r tag probe xs s)
  | drain => exact edge rfl (drain s)
  | headTaken r => exact edge rfl (headTaken r s)
  | pullinEnd r => exact edge rfl (pullinEnd r s)
  | holdPulsePeriod r => exact edge rfl (holdPulsePeriod r s)
  | holdEnd r => exact edge rfl (holdEnd r s)
  | gapEnd r => exact edge rfl (gapEnd r s)
  | purgeEnd r => exact edge rfl (purgeEnd r s)
  | recoverEnd r => exact edge rfl (recoverEnd r s)
  | linkBreak => exact edge rfl (linkBreak_keeps (refl s) ⟨rfl, rfl, rfl, rfl⟩)
  | warmReset m p => exact exec_elim h rfl (command fun _ u => ⟨rfl, rfl, rfl, rfl⟩)
  | startRun m p => exact exec_elim h rfl (command fun _ u => startRun_keeps (fun _ _ _ hu => hu) (refl u) (startRun m u))
  | pauseRun m p => exact exec_elim h rfl (command fun _ u => pauseRun m u)
  | resumeRun m p => exact exec_elim h rfl (command fun _ u => resumeRun m u)
  | endRun m p => exact exec_elim h rfl (command fun _ u => endRun m u)
  | markerResumeRetry m p => exact exec_elim h rfl (command fun a u => markerResume m a u)
  | markerResumeSkip m p => exact exec_elim h rfl (command fun a u => markerResume m a u)
  | markerTest m p => exact exec_elim h rfl (command fun a u => markerTest m a u)
  | markerCancel m p => exact exec_elim h rfl (command fun a u => markerCancel m a u)
  | rebase m p => exact exec_elim h rfl (command fun a u => rebase m a u)
  | _ => exact of_changes (exec_changes _ s t h) (by simp [touches]) (by simp [touches]) (by simp [touches]) (by simp [touches])

end TablesKept

/-- Only SET_PARAM and WRITE_PROBE, and the release of cold reset, touch the parameters and the Probe Table. -/
theorem touches_params (i : Instr) (hparam : ∀ m p, i ≠ .setParam m p) (hprobe : ∀ m p, i ≠ .writeProbe m p)
    (hrelease : ∀ l, i ≠ .resetRelease l) : Block.params ∉ touches i ∧ Block.probes ∉ touches i := by
  cases i
  case setParam m p => exact absurd rfl (hparam m p)
  case writeProbe m p => exact absurd rfl (hprobe m p)
  case resetRelease l => exact absurd rfl (hrelease l)
  all_goals exact ⟨by simp [touches], by simp [touches]⟩

/-- Settles O59: the blocks that a command touches, and the tables in the blocks that it shares. -/
theorem onlyWritesChangeConfiguration : Obligations.OnlyWritesChangeConfiguration := by
  intro i s t hexec hparam hprobe hstep hpattern hspray hrelease
  obtain ⟨hparams, hprobes⟩ := touches_params i hparam hprobe hrelease
  obtain ⟨ksteps, kpatterns, ksprays, kcount⟩ := TablesKept.exec i s t hexec hparam hprobe hstep hpattern hspray hrelease
  exact ⟨exec_same hexec .params hparams, exec_same hexec .probes hprobes, ksteps, kpatterns, ksprays, kcount⟩

end Sys2Proof.Machine
end


section
/-! PROOFS. The table of run states under every command. -/
namespace Sys2Proof.Machine

/-! ## The run state and the run number (R21, R24) -/

/-- The run state and the run number are the same in two states. -/
def runKept (s t : State) : Prop := t.run.state = s.run.state ∧ t.run.runNumber = s.run.runNumber

namespace RunKept

theorem refl (s : State) : runKept s s := ⟨rfl, rfl⟩

theorem of_changes {bs : List Block} {s t : State} (h : changesOnly bs s t) (hrun : Block.run ∉ bs) : runKept s t :=
  ⟨congrArg RunControl.state (changesOnly_same h .run hrun), congrArg RunControl.runNumber (changesOnly_same h .run hrun)⟩

theorem liftSample (v : Bool) (s : State) : runKept s (liftSample v s) := by
  by_cases htaken : s.odo.liftSample = v ∧ s.odo.lifted ≠ v
  · obtain ⟨-, hrun, -⟩ := liftSample_taken_spec htaken
    exact ⟨(congrArg RunControl.state hrun).trans rfl, (congrArg RunControl.runNumber hrun).trans rfl⟩
  · rw [liftSample_kept htaken]
    exact refl s

theorem paramWritten (s : State) (n : Nat) : runKept s (s.paramWritten n) := by
  unfold State.paramWritten
  split
  · exact of_changes (modeWritten_changes s) (by simp)
  · exact of_changes (dueTest_changes s .a) (by simp)
  · exact of_changes (dueTest_changes s .b) (by simp)
  · exact refl s

theorem setParam (h : Sender) (a : SetParamArgs) (s : State) : runKept s (setParam h a s) := by
  unfold Machine.setParam
  split
  · exact refl s
  case h_2 value _ => exact paramWritten ((s.setParams (s.params.write a.id.toNat value)).bumpGeneration) a.id.toNat

theorem writeProbe (h : Sender) (a : WriteProbeArgs) (s : State) : runKept s (writeProbe h a s) := by
  unfold Machine.writeProbe
  dsimp only
  split
  · split
    · exact refl s
    · split
      · exact refl s
      · exact refl s
  · exact refl s

theorem writeStep (h : Sender) (a : WriteStepArgs) (s : State) : runKept s (writeStep h a s) := by
  unfold Machine.writeStep
  dsimp only
  split
  · split
    · exact refl s
    · exact refl s
  · exact refl s

theorem writePattern (h : Sender) (a : WritePatternArgs) (s : State) : runKept s (writePattern h a s) := by
  unfold Machine.writePattern
  split
  · split
    · exact refl s
    · exact refl s
  · exact refl s

theorem writeSpray (h : Sender) (a : WriteSprayArgs) (s : State) : runKept s (writeSpray h a s) := by
  unfold Machine.writeSpray
  split
  · exact refl s
  · exact refl s

/-- A command keeps them where its owner does. -/
theorem command {α : Type} {s : State} {m : Sender} {code : Byte} {ps : Params α} {owner : α → State → State}
    (howner : ∀ (a : α) (t : State), runKept t (owner a t)) : runKept s (s.command m code ps owner) :=
  command_keeps (p := runKept s) (refl s) (fun h => h) (fun _ _ h => h) fun a t h =>
    ⟨(howner a t).1.trans h.1, (howner a t).2.trans h.2⟩

end RunKept

/-! ## The commands that change them -/

/-- A run-control command moves the run state, or answers alone. -/
def runMoves (s t : State) (new : RunState) : Prop := t.run.state = new ∧ t.run.runNumber = s.run.runNumber

theorem startRun_running (s : State) (h : Sender) : (s.startRun h).run.state = .running := by
  have hlane : ∀ (u : State) (r : Rail), (u.startLane r).run = u.run := fun u r => by
    obtain ⟨-, -, hchanges⟩ := startLane_lanes u r
    exact changesOnly_same hchanges .run (by simp)
  unfold State.startRun
  dsimp only
  rw [changesOnly_same (settleKeepAlive_changes _) .run (by simp), hlane, hlane, judgeSuspension_run]
  rfl

theorem startRun_moves (h : Sender) (s : State) :
    runKept s (startRun h () s) ∨ (s.run.state = .stopped ∧ (startRun h () s).run.state = .running) := by
  unfold startRun
  split
  · exact .inl (RunKept.refl s)
  case isFalse hstopped =>
    split
    · exact .inl (RunKept.refl s)
    · exact .inr ⟨not_not.1 hstopped, startRun_running s h⟩

theorem judgedAndReplied_moves {s v : State} {new : RunState} (hv : runMoves s v new) (h : Sender) (code : Byte)
    (x : SuspendBeginCause) (y : SuspendEndCause) : runMoves s (v.judgedAndReplied h code x y) new := by
  obtain ⟨hrun, -⟩ := judgedAndReplied_spec v h code x y
  unfold runMoves
  rw [hrun]
  exact hv

theorem markStopping_run_eq (s : State) : s.markStopping.run = s.run := changesOnly_same (markStopping_changes s) .run (by simp)

theorem pauseRun_moves (h : Sender) (s : State) :
    runKept s (pauseRun h () s) ∨ (s.run.state = .running ∧ runMoves s (pauseRun h () s) .paused) := by
  unfold pauseRun
  split
  case h_1 hrunning =>
    exact .inr ⟨hrunning, judgedAndReplied_moves (v := s.markStopping.changeRun h .paused)
      ⟨rfl, (congrArg RunControl.runNumber (markStopping_run_eq s)).trans rfl⟩ h 0x02 .pause .endRun⟩
  case h_2 => exact .inl (RunKept.refl s)

theorem resumeRun_moves (h : Sender) (s : State) :
    runKept s (resumeRun h () s) ∨ (s.run.state = .paused ∧ runMoves s (resumeRun h () s) .running) := by
  unfold resumeRun
  split
  case h_1 hpaused =>
    exact .inr ⟨hpaused, judgedAndReplied_moves (v := s.changeRun h .running) ⟨rfl, rfl⟩ h 0x03 .lift .resume⟩
  case h_2 => exact .inl (RunKept.refl s)

theorem endRun_moves (h : Sender) (s : State) : runKept s (endRun h () s)
    ∨ ((s.run.state = .running ∨ s.run.state = .paused) ∧ runMoves s (endRun h () s) .draining) := by
  have htaken : runMoves s (s.endRunTaken h) .draining := by
    unfold runMoves State.endRunTaken
    rw [changesOnly_same (judgeDrain_changes _) .run (by simp)]
    exact judgedAndReplied_moves (v := s.recordEndK.markStopping.changeRun h .draining)
      ⟨rfl, (congrArg RunControl.runNumber (markStopping_run_eq s.recordEndK)).trans rfl⟩ h 0x04 .lift .endRun
  unfold endRun
  split
  case h_1 hrunning => exact .inr ⟨.inl hrunning, htaken⟩
  case h_2 hpaused => exact .inr ⟨.inr hpaused, htaken⟩
  case h_3 => exact .inl (RunKept.refl s)

theorem drain_moves (s : State) : runKept s (drain s) ∨ (s.run.state = .draining ∧ runMoves s (drain s) .stopped) := by
  by_cases hstarts : s.drainStarts = true
  · have hdraining := ((drainStarts_iff s).1 hstarts).1
    have hdrained : drain s = ((s.drainRail .a).drainRail .b).drainEnd := if_pos hstarts
    have hrails : ((s.drainRail .a).drainRail .b).run = s.run :=
      changesOnly_same (changesOnly_trans (drainRail_changes s .a) (drainRail_changes _ .b)) .run (by simp)
    rw [hdrained]
    unfold runMoves
    rw [drainEnd_run, hrails]
    exact .inr ⟨hdraining, rfl, rfl⟩
  · exact .inl (by rw [show drain s = s from if_neg hstarts]; exact RunKept.refl s)

theorem linkBreak_moves (s : State) : runKept s (linkBreak s) ∨ runMoves s (linkBreak s) .stopped := by
  unfold linkBreak
  split
  · exact .inl (RunKept.refl s)
  · exact .inr ⟨rfl, rfl⟩

/-- An event leaves the state as it was while held, and else what it makes of it. -/
theorem edge_result {i : Instr} {s t : State} {f : State → State} (h : exec i s = .next t)
    (hexec : exec i s = .next (s.unlessHeld f)) : t = s ∨ t = f s := by
  refine exec_elim (p := fun u => u = s ∨ u = f s) h hexec ?_
  cases hheld : s.held with
  | true => exact .inl (unlessHeld_held hheld f)
  | false => exact .inr (unlessHeld_free hheld f)

/-- A command with the index's parameters leaves the state as it was while held, and else what its owner makes of it. -/
theorem command_result {α : Type} {i : Instr} {s t : State} {m : Sender} {code : Byte} {a : α} {owner : α → State → State}
    (h : exec i s = .next t) (hexec : exec i s = .next (s.command m code (.fields a) owner)) :
    t = s ∨ t = owner a (s.take m code) := by
  refine exec_elim (p := fun u => u = s ∨ u = owner a (s.take m code)) h hexec ?_
  cases hheld : s.held with
  | true => exact .inl (unlessHeld_held hheld _)
  | false => exact .inr (command_fields hheld m code a owner)

theorem wrongLength_kept {α : Type} {i : Instr} {s t : State} {m : Sender} {code : Byte} {n : Nat} {owner : α → State → State}
    (h : exec i s = .next t) (hexec : exec i s = .next (s.command m code (.wrongLength n) owner)) : runKept s t :=
  exec_elim h hexec (unlessHeld_keeps (RunKept.refl s) (RunKept.refl s))

/-- Settles O60: the commands that change the run state, and all others, which keep it. -/
theorem runStateFollowsItsTable : Obligations.RunStateFollowsItsTable := by
  intro i s t hexec
  by_cases hkept : runKept s t
  · exact ⟨.inl hkept.1, .inl hkept.2⟩
  cases i with
  | startRun m p =>
    cases p with
    | wrongLength n => exact absurd (wrongLength_kept hexec rfl) hkept
    | fields u =>
      obtain rfl | rfl := command_result hexec rfl
      · exact absurd (RunKept.refl _) hkept
      · obtain ⟨hstopped, hrunning⟩ := (startRun_moves m (s.take m 0x01)).resolve_left hkept
        exact ⟨.inr (.inl ⟨hstopped, hrunning, m, rfl⟩), .inr (.inl ⟨m, rfl⟩)⟩
  | pauseRun m p =>
    cases p with
    | wrongLength n => exact absurd (wrongLength_kept hexec rfl) hkept
    | fields u =>
      obtain rfl | rfl := command_result hexec rfl
      · exact absurd (RunKept.refl _) hkept
      · obtain ⟨hrunning, hpaused, hnumber⟩ := (pauseRun_moves m (s.take m 0x02)).resolve_left hkept
        exact ⟨.inr (.inr (.inl ⟨hrunning, hpaused, m, rfl⟩)), .inl hnumber⟩
  | resumeRun m p =>
    cases p with
    | wrongLength n => exact absurd (wrongLength_kept hexec rfl) hkept
    | fields u =>
      obtain rfl | rfl := command_result hexec rfl
      · exact absurd (RunKept.refl _) hkept
      · obtain ⟨hpaused, hrunning, hnumber⟩ := (resumeRun_moves m (s.take m 0x03)).resolve_left hkept
        exact ⟨.inr (.inr (.inr (.inl ⟨hpaused, hrunning, m, rfl⟩))), .inl hnumber⟩
  | endRun m p =>
    cases p with
    | wrongLength n => exact absurd (wrongLength_kept hexec rfl) hkept
    | fields u =>
      obtain rfl | rfl := command_result hexec rfl
      · exact absurd (RunKept.refl _) hkept
      · obtain ⟨hrun, hdraining, hnumber⟩ := (endRun_moves m (s.take m 0x04)).resolve_left hkept
        exact ⟨.inr (.inr (.inr (.inr (.inl ⟨hrun, hdraining, m, rfl⟩)))), .inl hnumber⟩
  | drain =>
    obtain rfl | rfl := edge_result hexec rfl
    · exact absurd (RunKept.refl _) hkept
    · obtain ⟨hdraining, hstopped, hnumber⟩ := (drain_moves s).resolve_left hkept
      exact ⟨.inr (.inr (.inr (.inr (.inr (.inl ⟨hdraining, hstopped, rfl⟩))))), .inl hnumber⟩
  | warmReset m p =>
    cases p with
    | wrongLength n => exact absurd (wrongLength_kept hexec rfl) hkept
    | fields u =>
      obtain rfl | rfl := command_result hexec rfl
      · exact absurd (RunKept.refl _) hkept
      · exact ⟨.inr (.inr (.inr (.inr (.inr (.inr ⟨rfl, .inl ⟨m, rfl⟩⟩))))), .inl rfl⟩
  | linkBreak =>
    obtain rfl | rfl := edge_result hexec rfl
    · exact absurd (RunKept.refl _) hkept
    · obtain ⟨hstopped, hnumber⟩ := (linkBreak_moves s).resolve_left hkept
      exact ⟨.inr (.inr (.inr (.inr (.inr (.inr ⟨hstopped, .inr (.inl rfl)⟩))))), .inl hnumber⟩
  | resetRelease l =>
    have hstopped : t.run.state = .stopped := exec_elim (p := fun u => u.run.state = .stopped) hexec rfl rfl
    exact ⟨.inr (.inr (.inr (.inr (.inr (.inr ⟨hstopped, .inr (.inr ⟨l, rfl⟩)⟩))))), .inr (.inr ⟨l, rfl⟩)⟩
  | liftSample v => exact absurd (exec_elim hexec rfl (unlessHeld_keeps (RunKept.refl s) (RunKept.liftSample v s))) hkept
  | setParam m p => exact absurd (exec_elim hexec rfl (RunKept.command fun a u => RunKept.setParam m a u)) hkept
  | writeProbe m p => exact absurd (exec_elim hexec rfl (RunKept.command fun a u => RunKept.writeProbe m a u)) hkept
  | writeStep m p => exact absurd (exec_elim hexec rfl (RunKept.command fun a u => RunKept.writeStep m a u)) hkept
  | writePattern m p => exact absurd (exec_elim hexec rfl (RunKept.command fun a u => RunKept.writePattern m a u)) hkept
  | writeSpray m p => exact absurd (exec_elim hexec rfl (RunKept.command fun a u => RunKept.writeSpray m a u)) hkept
  | _ => exact absurd (RunKept.of_changes (exec_changes _ s t hexec) (by simp [touches])) hkept

end Sys2Proof.Machine
end


section
/-! PROOFS. The broadcast of a link frame and the bits of LK_DOUT. -/
namespace Sys2Proof.Machine

/-! ## Bits of a sampled byte (R166, R183) -/

/-- A bit of a byte made of a number. -/
theorem ofNat_bit (n i : Nat) (hi : i < 8) : (BitVec.ofNat 8 n).getLsbD i = decide (n / 2 ^ i % 2 = 1) := by
  rw [BitVec.getLsbD_ofNat, decide_eq_true hi, Bool.true_and, Nat.testBit_eq_decide_div_mod_eq]

/-- A bit of a byte where the number's digit is a condition. -/
theorem ofNat_bit_eq {n i : Nat} (hi : i < 8) {b : Bool} (h : n / 2 ^ i % 2 = b.toNat) : (BitVec.ofNat 8 n).getLsbD i = b := by
  rw [ofNat_bit n i hi, h]
  cases b
  all_goals rfl

theorem direction_code (d : Direction) : Direction.code d = (decide (d = .backward)).toNat := by
  cases d
  all_goals rfl

theorem encoder_code (e : Encoder) : Encoder.code e = (decide (e = .secondary)).toNat := by
  cases e
  all_goals rfl

theorem runState_code_lt (x : RunState) : x.code < 4 := by
  cases x
  all_goals decide

/-- Byte 6 of a broadcast, bit by bit (11.6.2). -/
theorem summary_bits (s : State) : (BitVec.ofNat 8 s.summaryByte).toNat / 64 = s.run.state.code
    ∧ (BitVec.ofNat 8 s.summaryByte).getLsbD 5 = decide (s.odo.direction = .backward)
    ∧ (BitVec.ofNat 8 s.summaryByte).getLsbD 4 = s.odo.standstill ∧ (BitVec.ofNat 8 s.summaryByte).getLsbD 3 = s.odo.retrace
    ∧ (BitVec.ofNat 8 s.summaryByte).getLsbD 2 = s.odo.lifted ∧ (BitVec.ofNat 8 s.summaryByte).getLsbD 1 = s.run.suspension
    ∧ (BitVec.ofNat 8 s.summaryByte).getLsbD 0 = false := by
  have hcode := runState_code_lt s.run.state
  have hbackward := Bool.toNat_le (decide (s.odo.direction = .backward))
  have hstandstill := Bool.toNat_le s.odo.standstill
  have hretrace := Bool.toNat_le s.odo.retrace
  have hlifted := Bool.toNat_le s.odo.lifted
  have hsuspension := Bool.toNat_le s.run.suspension
  unfold State.summaryByte
  rw [direction_code]
  refine ⟨?_, ofNat_bit_eq (by decide) ?_, ofNat_bit_eq (by decide) ?_, ofNat_bit_eq (by decide) ?_, ofNat_bit_eq (by decide) ?_,
    ofNat_bit_eq (by decide) ?_, ofNat_bit_eq (b := false) (by decide) ?_⟩
  · rw [BitVec.toNat_ofNat]
    omega
  case refine_7 =>
    rw [Bool.toNat_false]
    omega
  all_goals omega

/-- The condition word of item 5, bit by bit (11.6.2). -/
theorem condition_bits (s : State) : (BitVec.ofNat 8 s.conditionWord).getLsbD 7 = s.odo.standstill
    ∧ (BitVec.ofNat 8 s.conditionWord).getLsbD 6 = s.odo.slip
    ∧ (BitVec.ofNat 8 s.conditionWord).getLsbD 5 = decide (s.odo.source = .secondary)
    ∧ (BitVec.ofNat 8 s.conditionWord).getLsbD 4 = s.odo.retrace ∧ (BitVec.ofNat 8 s.conditionWord).getLsbD 3 = s.odo.limit.isSome
    ∧ (BitVec.ofNat 8 s.conditionWord).getLsbD 2 = s.seq.overspeed ∧ (BitVec.ofNat 8 s.conditionWord).getLsbD 1 = s.odo.lifted
    ∧ (BitVec.ofNat 8 s.conditionWord).getLsbD 0 = s.run.suspension := by
  have hstandstill := Bool.toNat_le s.odo.standstill
  have hslip := Bool.toNat_le s.odo.slip
  have hsource := Bool.toNat_le (decide (s.odo.source = .secondary))
  have hretrace := Bool.toNat_le s.odo.retrace
  have hlimit := Bool.toNat_le s.odo.limit.isSome
  have hoverspeed := Bool.toNat_le s.seq.overspeed
  have hlifted := Bool.toNat_le s.odo.lifted
  have hsuspension := Bool.toNat_le s.run.suspension
  unfold State.conditionWord
  rw [encoder_code]
  refine ⟨ofNat_bit_eq (by decide) ?_, ofNat_bit_eq (by decide) ?_, ofNat_bit_eq (by decide) ?_, ofNat_bit_eq (by decide) ?_,
    ofNat_bit_eq (by decide) ?_, ofNat_bit_eq (by decide) ?_, ofNat_bit_eq (by decide) ?_, ofNat_bit_eq (by decide) ?_⟩
  all_goals omega

/-- A LIMIT end shown (R6, notes/assumptions/5.md). -/
theorem limitEnd_shown (s : State) (i : Nat) : (s.odo.limit = some .upper → s.limitEndCode i = 0)
    ∧ (s.odo.limit = some .lower → s.limitEndCode i = 1) := by
  unfold State.limitEndCode
  refine ⟨fun h => ?_, fun h => ?_⟩
  · rw [h]
    rfl
  · rw [h]
    rfl

theorem gateOpen_eq (l : LinkState) : 8 * l.gateOpen.toNat =
    if l.intakeFill + 64 ≤ l.intakePages * 512 ∧ l.recovery = false then 8 else 0 := by
  have hopen : l.gateOpen = true ↔ l.intakeFill + 64 ≤ l.intakePages * 512 ∧ l.recovery = false := by
    simp [LinkState.gateOpen]
  by_cases h : l.gateOpen = true
  · rw [if_pos (hopen.1 h), h]
    rfl
  · rw [if_neg (mt hopen.2 h), Bool.eq_false_iff.2 h]
    rfl

theorem coupledMask_bit (l : Lane) (p : Fin 16) :
    l.coupledMask.getLsbD p.val = decide ((l.coupling[p]).state = .coupled) := by
  have hmask := maskFold (fun q => decide ((l.coupling[q]).state = .coupled)) p
  simp only [decide_eq_true_eq] at hmask
  exact hmask

/-! ## LK_DOUT (R165, 11.6.1) -/

theorem bitOf_one (x : Byte) {i : Nat} (hi : i < 8) : bitOf [x] i = x.getMsbD i := by
  unfold bitOf
  rw [Nat.div_eq_of_lt hi, Nat.mod_eq_of_lt hi]
  rfl

theorem sync_bit {bit : Nat} (h : bit < 16) (bs : List Byte) :
    bitOf ([0xF0, 0xB4] ++ bs) bit = (0xF0B4 : BitVec 16).getMsbD bit := by
  have hsync : ∀ i : Fin 16, bitOf [0xF0, 0xB4] i.val = (0xF0B4 : BitVec 16).getMsbD i.val := by decide
  rw [← hsync ⟨bit, h⟩]
  unfold bitOf
  rw [List.getD_append _ _ _ _ (show bit / 8 < 2 by omega)]

theorem broadcast_bit {bit : Nat} (h : 16 ≤ bit) (bs : List Byte) :
    bitOf ([0xF0, 0xB4] ++ bs) bit = (bs.getD ((bit - 16) / 8) 0).getMsbD (bit % 8) := by
  have hindex : bit / 8 - 2 = (bit - 16) / 8 := by omega
  unfold bitOf
  rw [List.getD_append_right _ _ _ _ (show 2 ≤ bit / 8 by omega)]
  exact congrArg (fun i => (bs.getD i 0).getMsbD (bit % 8)) hindex

/-- The level of LK_DOUT in a report lane field. -/
theorem lane_bit (l : LinkState) {bit : Nat} (hlo : 176 ≤ bit) (hhi : bit < 944) :
    l.doutBit bit = some ((l.lanes.get (laneAt bit)).lastByte.getMsbD (bit % 8)) := by
  have hphase : (bit - 176) % 8 = bit % 8 := by omega
  unfold LinkState.doutBit
  rw [if_neg (by omega), if_neg (by omega), if_pos hhi, bitOf_one _ (Nat.mod_lt _ (by decide)), hphase]

theorem doutBit_eq {l : LinkState} (hsync : l.sync = [0xF0, 0xB4]) (bit : Nat) : l.doutBit bit =
    if bit < 16 then some ((0xF0B4 : BitVec 16).getMsbD bit)
    else if bit < 112 then some ((l.broadcast.getD ((bit - 16) / 8) 0).getMsbD (bit % 8))
    else if bit < 176 then none
    else if bit < 432 then some (l.lanes.n1.lastByte.getMsbD (bit % 8))
    else if bit < 688 then some (l.lanes.n2.lastByte.getMsbD (bit % 8))
    else if bit < 944 then some (l.lanes.n3.lastByte.getMsbD (bit % 8))
    else some false := by
  by_cases h16 : bit < 16
  · unfold LinkState.doutBit
    rw [if_pos h16, if_pos (by omega), hsync, sync_bit h16]
  by_cases h112 : bit < 112
  · unfold LinkState.doutBit
    rw [if_neg h16, if_pos h112, if_pos h112, hsync, broadcast_bit (by omega)]
  by_cases h176 : bit < 176
  · unfold LinkState.doutBit
    rw [if_neg h16, if_neg h112, if_pos h176, if_neg h112, if_pos h176]
  rw [if_neg h16, if_neg h112, if_neg h176]
  by_cases h944 : bit < 944
  · rw [lane_bit l (by omega) h944]
    unfold laneAt
    by_cases h432 : bit < 432
    · rw [if_pos h432, if_pos h432]
      rfl
    by_cases h688 : bit < 688
    · rw [if_neg h432, if_neg h432, if_pos h688, if_pos h688]
      rfl
    · rw [if_neg h432, if_neg h432, if_neg h688, if_neg h688, if_pos h944]
      rfl
  · unfold LinkState.doutBit
    rw [if_neg (by omega), if_neg (by omega), if_neg (by omega), if_neg (by omega), if_neg (by omega), if_neg h944]

theorem lkDout_eq (s : State) : s.lkDout = if s.held = true ∨ s.samples = 0 then none
    else s.link.doutBit ((s.samples + 1999) % 2000 * 64 / 125) :=
  if_congr (by simp) rfl rfl

/-! ## The broadcast (R166) -/

theorem broadcast_length (s : State) : s.broadcastBytes.length = 12 :=
  congrArg (· + 8) (rotating_length s s.link.nextFrame.val)

/-- Settles O32: the fixed part by its bits, the rotating item by the frame number, and LK_DOUT bit by bit. -/
theorem linkFrameIsSampled : Obligations.LinkFrameIsSampled := by
  refine ⟨fun s hheld => answers_free (f := linkFrame) rfl hheld ?_, lkDout_eq, fun l bit hsync _ _ => doutBit_eq hsync bit⟩
  obtain ⟨hcode, hdirection, hstandstill, hretrace, hlifted, hsuspension, hzero⟩ := summary_bits s
  refine ⟨rfl, broadcast_length s, rfl, hcode.trans (by cases s.run.state <;> rfl), hdirection, hstandstill, hretrace, hlifted,
    hsuspension, hzero, congrArg (fun n => some (BitVec.ofNat 8 (16 * s.link.nextFrame.val + n))) (gateOpen_eq s.link), ?_,
    fun r p => coupledMask_bit _ p, ?_⟩
  · have hitem : (linkFrame s).link.broadcast.drop 8 = s.rotating s.link.nextFrame.val := rfl
    have hframe := s.link.nextFrame.isLt
    rw [hitem]
    generalize s.link.nextFrame.val = frame at hframe
    interval_cases frame
    -- Item 7 splits on the alert's rail, item 5 names its free bytes; every other item is its bytes as they stand.
    on_goal 8 =>
      show s.rotating 7 = _
      unfold State.rotating
      cases s.eval.alert.rail
      all_goals rfl
    on_goal 6 =>
      obtain ⟨hupper, hlower⟩ := limitEnd_shown s 0
      obtain ⟨hstandstill, hslip, hsource, hretrace, hlimit, hoverspeed, hlifted, hsuspension⟩ := condition_bits s
      exact ⟨_, _, rfl, hstandstill, hslip, hsource, hretrace, hlimit, hoverspeed, hlifted, hsuspension,
        fun h => congrArg (BitVec.ofNat 8) (hupper h), fun h => congrArg (BitVec.ofNat 8) (hlower h)⟩
    all_goals rfl
  · intro b
    cases b
    case link => exact .inl (by simp)
    case freeCtr => exact .inl (by simp)
    all_goals exact .inr rfl

end Sys2Proof.Machine
end


section
/-! PROOFS. READ_CELL and READ_STATUS. -/
namespace Sys2Proof.Machine

/-! ## READ_CELL (R108) -/

theorem readCell_eq {a : ReadCellArgs} {r : Rail} (hrail : railOf a.rail = some r) (h : Sender) (s : State) :
    readCell h a s =
      if (s.windows.get r).isOpen a.cell.toInt then
        s.reply h 0x40 .ok (i32 a.cell.toInt ++ u8 0 ++ groupsBytes ((s.windows.get r).groups a.cell.toInt))
      else
        match (s.windows.get r).tail.find? (fun x => decide (x.index = a.cell.toInt)) with
        | some x => s.reply h 0x40 .ok (i32 a.cell.toInt ++ u8 1 ++ groupsBytes x.groups ++ [x.muted] ++ flag x.drain)
        | none => s.refuse h 0x40 .notFound := by
  unfold readCell
  rw [hrail] <;> rfl

theorem readCell_open {a : ReadCellArgs} {r : Rail} (hrail : railOf a.rail = some r) (h : Sender) {s : State}
    (hopen : (s.windows.get r).k ≤ a.cell.toInt ∧ a.cell.toInt ≤ (s.windows.get r).k + 1023) : readCell h a s =
      s.reply h 0x40 .ok (i32 a.cell.toInt ++ u8 0 ++ groupsBytes ((s.windows.get r).groups a.cell.toInt)) :=
  (readCell_eq hrail h s).trans (if_pos ((isOpen_iff _ _).2 hopen))

theorem readCell_absent {a : ReadCellArgs} {r : Rail} (hrail : railOf a.rail = some r) (h : Sender) {s : State}
    (hclosed : ¬ ((s.windows.get r).k ≤ a.cell.toInt ∧ a.cell.toInt ≤ (s.windows.get r).k + 1023))
    (habsent : ∀ x ∈ (s.windows.get r).tail, x.index ≠ a.cell.toInt) : readCell h a s = s.refuse h 0x40 .notFound := by
  have hnone : (s.windows.get r).tail.find? (fun x => decide (x.index = a.cell.toInt)) = none :=
    List.find?_eq_none.2 fun x hx hindex => habsent x hx (by simpa using hindex)
  rw [readCell_eq hrail h s, if_neg (mt (isOpen_iff _ _).1 hclosed), hnone]

theorem readCell_closed {a : ReadCellArgs} {r : Rail} (hrail : railOf a.rail = some r) (h : Sender) {s : State}
    (hclosed : ¬ ((s.windows.get r).k ≤ a.cell.toInt ∧ a.cell.toInt ≤ (s.windows.get r).k + 1023)) {x : ClosedCell}
    (hx : x ∈ (s.windows.get r).tail) (hindex : x.index = a.cell.toInt)
    (hunique : ∀ y ∈ (s.windows.get r).tail, y.index = a.cell.toInt → y = x) : readCell h a s =
      s.reply h 0x40 .ok (i32 a.cell.toInt ++ u8 1 ++ groupsBytes x.groups ++ [x.muted] ++ u8 x.drain.toNat) := by
  have hsome : (s.windows.get r).tail.find? (fun x => decide (x.index = a.cell.toInt)) = some x :=
    find_of_unique hx (by simpa using hindex) fun y hy hyindex => hunique y hy (by simpa using hyindex)
  rw [readCell_eq hrail h s, if_neg (mt (isOpen_iff _ _).1 hclosed), hsome]
  rfl

/-! ## Sections of READ_STATUS (R182) -/

/-- Section 0 (R182). -/
theorem section0_eq (s : State) : s.section0 = u8 s.run.state.code ++ u16 s.run.runNumber.toNat ++ flag s.run.suspension
    ++ u16 s.run.generation.toNat ++ i16 s.run.reach.a.least ++ i16 s.run.reach.a.greatest
    ++ i16 s.run.reach.b.least ++ i16 s.run.reach.b.greatest ++ i16 s.run.reachAll.least
    ++ i16 s.run.reachAll.greatest ++ i32 s.odo.cp ++ i32 s.odo.hw
    ++ u8 (Direction.code s.odo.direction) ++ u8 (Encoder.code s.odo.source) ++ u16 s.odo.speed
    ++ flag s.odo.standstill ++ flag s.odo.slip ++ flag s.odo.retrace ++ flag s.odo.limit.isSome
    ++ u8 (s.limitEndCode 0) ++ flag s.odo.lifted ++ u8 s.odo.mismatch ++ u8 s.odo.agreement
    ++ u16 s.odo.errorTally := by
  unfold State.section0 State.limitBytes Reach.bytes
  repeat rw [← List.append_assoc]

theorem older_spec (now : Byte) (x y : FiringRecord) : (older now x y = x ∨ older now x y = y)
    ∧ (older now x y).issued ≤ x.issued ∧ (older now x y).issued ≤ y.issued := by
  unfold older
  split
  case isTrue h => exact ⟨.inr rfl, by omega, le_refl _⟩
  case isFalse h => exact ⟨.inl rfl, le_refl _, by omega⟩

/-- The oldest of a list of records is a member, issued no later than any (R51). -/
theorem foldl_older (now : Byte) (rest : List FiringRecord) (x : FiringRecord) :
    rest.foldl (older now) x ∈ x :: rest ∧ ∀ y ∈ x :: rest, (rest.foldl (older now) x).issued ≤ y.issued := by
  induction rest generalizing x with
  | nil => exact ⟨List.mem_singleton.2 rfl, fun y hy => by rw [List.mem_singleton.1 hy]; exact le_refl _⟩
  | cons z rest ih =>
    obtain ⟨hmem, hleast⟩ := ih (older now x z)
    obtain ⟨hone, hx, hz⟩ := older_spec now x z
    have hfirst := hleast _ List.mem_cons_self
    rw [List.foldl_cons]
    refine ⟨?_, fun y hy => ?_⟩
    · rcases List.mem_cons.1 hmem with heq | hin
      · rw [heq]
        rcases hone with h | h
        · rw [h]
          exact List.mem_cons_self
        · rw [h]
          exact List.mem_cons_of_mem _ List.mem_cons_self
      · exact List.mem_cons_of_mem _ (List.mem_cons_of_mem _ hin)
    · rcases List.mem_cons.1 hy with rfl | hy
      · exact hfirst.trans hx
      rcases List.mem_cons.1 hy with rfl | hy
      · exact hfirst.trans hz
      · exact hleast y (List.mem_cons_of_mem _ hy)

theorem mem_outstanding (q : Sequencer) (x : FiringRecord) : x ∈ q.ring.toList.filter FiringRecord.outstanding ↔
    ∃ i : Fin 64, q.ring[i] = x ∧ (q.ring[i]).outstanding = true := by
  rw [List.mem_filter, Vector.mem_toList_iff, Vector.mem_iff_getElem]
  constructor
  · rintro ⟨⟨n, hn, rfl⟩, hout⟩
    exact ⟨⟨n, hn⟩, rfl, hout⟩
  · rintro ⟨i, rfl, hout⟩
    exact ⟨⟨i.val, i.isLt, rfl⟩, hout⟩

/-- The oldest outstanding record, where there is one (R51). -/
theorem oldest_spec (q : Sequencer) : (q.oldest = none ∧ ∀ i : Fin 64, (q.ring[i]).outstanding = false)
    ∨ ∃ i : Fin 64, q.oldest = some q.ring[i] ∧ (q.ring[i]).outstanding = true
      ∧ ∀ j : Fin 64, (q.ring[j]).outstanding = true → (q.ring[i]).issued ≤ (q.ring[j]).issued := by
  have hmem := mem_outstanding q
  unfold Sequencer.oldest
  cases hlist : q.ring.toList.filter FiringRecord.outstanding with
  | nil =>
    rw [hlist] at hmem
    exact .inl ⟨rfl, fun i => Bool.eq_false_iff.2 fun hout => List.not_mem_nil ((hmem q.ring[i]).2 ⟨i, rfl, hout⟩)⟩
  | cons x rest =>
    rw [hlist] at hmem
    obtain ⟨hin, hleast⟩ := foldl_older q.tagCounter rest x
    obtain ⟨i, hi, hout⟩ := (hmem _).1 hin
    refine .inr ⟨i, congrArg some hi.symm, hout, fun j hj => ?_⟩
    rw [hi]
    exact hleast _ ((hmem _).2 ⟨j, rfl, hj⟩)

/-- The bytes of the oldest record (R182). -/
theorem oldestBytes_spec (s : State) : if ∀ i : Fin 64, (s.seq.ring[i]).outstanding = false then s.oldestBytes = [0]
    else ∃ i : Fin 64, (s.seq.ring[i]).outstanding = true
      ∧ (∀ j : Fin 64, (s.seq.ring[j]).outstanding = true → (s.seq.ring[i]).issued ≤ (s.seq.ring[j]).issued)
      ∧ s.oldestBytes = [1, (s.seq.ring[i]).tag] ++ u8 (Rail.num (s.seq.ring[i]).lane)
          ++ u8 (s.seq.ring[i]).step ++ u8 (CycleKind.code (s.seq.ring[i]).kind)
          ++ u16 (min (10 * (s.samples / 80 - (s.seq.ring[i]).issued)) 65535) := by
  unfold State.oldestBytes
  rcases oldest_spec s.seq with ⟨hnone, hfree⟩ | ⟨i, hsome, hout, hleast⟩
  · rw [if_pos hfree, hnone]
    rfl
  · rw [if_neg (fun hfree => Bool.false_ne_true ((hfree i).symm.trans hout)), hsome]
    exact ⟨i, hout, hleast, rfl⟩

theorem cycle_bytes (c : CycleState) :
    c.bytes = (match c with | .idle => [0, 0] | .stepping k => [1, BitVec.ofNat 8 k]) := by
  cases c
  all_goals rfl

/-- Sections 2 and 3 (R182). -/
theorem lane_bytes (l : Lane) : l.bytes = u8 l.state.code ++ [l.setupNumber] ++ u8 l.setupSent ++ flag l.setupFinal ++ u16 l.timer
    ++ u8 l.incomplete ++ u16 l.corrupt ++ u16 l.stale ++ u16 l.unexpected ++ u16 l.duplicate
    ++ (List.finRange 16).flatMap fun p => u8 (l.coupling[p]).state.code
        ++ u8 (l.coupling[p]).absent ++ u8 (l.coupling[p]).present := by
  have hlocal : localProbes = List.finRange 16 := by decide
  unfold Lane.bytes
  rw [hlocal]
  rfl

theorem tailBytes_length (s : State) (r : Rail) (i : Nat) : (s.tailBytes r i).length = 8 := by
  unfold State.tailBytes
  split
  · rfl
  · rfl

theorem tailBytes_ends {s : State} {r : Rail} (i : Nat) {x y : ClosedCell} (hx : (s.windows.get r).tail.head? = some x)
    (hy : (s.windows.get r).tail.getLast? = some y) : s.tailBytes r i = i32 x.index ++ i32 y.index := by
  unfold State.tailBytes
  cases htail : (s.windows.get r).tail with
  | nil =>
    rw [htail] at hx
    exact absurd hx (by simp)
  | cons z rest =>
    rw [htail] at hx hy
    rw [hy]
    obtain rfl : z = x := Option.some.inj hx
    rfl

/-- The sides of a queue's entries as READ_STATUS shows them, free values from the `i`-th on (R182). -/
def State.sideBytes (s : State) : List MarkerEntry → Nat → List Byte
  | [], _ => []
  | e :: rest, i => BitVec.ofNat 8 (s.sideCode e i) :: s.sideBytes rest (i + 1)

theorem sideBytes_length (s : State) (q : List MarkerEntry) (i : Nat) : (s.sideBytes q i).length = q.length := by
  induction q generalizing i with
  | nil => rfl
  | cons e rest ih => exact congrArg (· + 1) (ih (i + 1))

theorem queueBytes_eq (s : State) (q : List MarkerEntry) (i : Nat) : s.queueBytes q i = (q.zip (s.sideBytes q i)).flatMap fun x =>
    i32 x.1.target ++ u8 (x.1.spray.val + 1) ++ u8 x.1.cls.val ++ u8 (Origin.code x.1.origin)
      ++ u8 (Arming.code x.1.arming) ++ [x.2] := by
  induction q generalizing i with
  | nil => rfl
  | cons e rest ih =>
    refine Eq.trans ?_ List.flatMap_cons.symm
    exact congrArg (s.entryBytes e i ++ ·) (ih (i + 1))

/-- A side that is recorded is the side shown (R182). -/
theorem sideBytes_shown (s : State) (q : List MarkerEntry) (i : Nat) :
    ∀ x ∈ q.zip (s.sideBytes q i), ∀ d, x.1.side = some d → x.2 = BitVec.ofNat 8 d.code := by
  induction q generalizing i with
  | nil => exact fun x hx => absurd hx List.not_mem_nil
  | cons e rest ih =>
    intro x hx d hd
    rcases List.mem_cons.1 hx with rfl | hx
    · refine congrArg (BitVec.ofNat 8) ?_
      unfold State.sideCode
      rw [show e.side = some d from hd]
    · exact ih (i + 1) x hx d hd

theorem firePoint_shown {s : State} {r : Rail} {x : MarkerEntry} {rest : List MarkerEntry}
    (hqueue : (s.marker.engines.get r).queue = x :: rest) : s.headFirePoint r = s.firePoint x.target := by
  unfold State.headFirePoint
  rw [hqueue]

theorem threeLanes (f : Node → List Byte) : [Node.n1, .n2, .n3].flatMap f = f .n1 ++ f .n2 ++ f .n3 := by
  simp only [List.flatMap_cons, List.flatMap_nil, List.append_nil, List.append_assoc]

/-- The link's section of a report lane (R182). -/
theorem section8_eq (s : State) : s.section8 = u8 s.link.intakePages ++ u8 s.link.lanes.n1.pages ++ u8 s.link.lanes.n2.pages
    ++ u8 s.link.lanes.n3.pages ++ u16 s.link.intakeFill ++ u16 s.link.lanes.n1.fill ++ u16 s.link.lanes.n2.fill
    ++ u16 s.link.lanes.n3.fill
    ++ ([Node.n1, .n2, .n3].flatMap fun n =>
      u8 (s.link.lanes.get n).kindMask.toNat ++ u16 (s.link.lanes.get n).classMask.toNat
        ++ u16 (s.link.lanes.get n).shed ++ u16 (s.link.lanes.get n).lost
        ++ i32 (s.link.lanes.get n).firstLoss ++ i32 (s.link.lanes.get n).lastLoss)
    ++ u16 s.link.oversize ++ u16 s.link.badNode ++ u16 s.link.badCheck ++ u16 s.link.badLength ++ u16 s.link.noRoom
    ++ u16 s.link.aborts ++ u8 s.link.dominantCount ++ flag s.link.recovery := by
  rw [threeLanes]
  unfold State.section8 ReportLane.bytes
  dsimp only
  repeat rw [← List.append_assoc]
  rfl

/-- Section 4 (R182). -/
theorem section4_eq (s : State) {edges : PerRail (List Byte)} (hedges : edges = { a := s.tailBytes .a 0, b := s.tailBytes .b 2 }) :
    s.section4 = ([Rail.a, .b].flatMap fun r =>
        i32 (s.windows.get r).k ++ i32 (s.windows.get r).opening ++ i32 ((s.windows.get r).k * (s.params.cellTicks : Int))
          ++ u8 (s.windows.get r).tail.length ++ edges.get r ++ u16 (s.windows.get r).late
          ++ u16 (s.windows.get r).early ++ u16 (s.windows.get r).misplaced
          ++ u16 (s.eval.gaps.get r).length ++ i32 (s.eval.gaps.get r).start ++ [(s.eval.gaps.get r).missing]
          ++ u8 ((s.eval.runs.get r).toList.filter fun x => x.length != 0).length)
      ++ u8 s.params.cellTicks ++ u16 s.params.closeMargin ++ [s.params.required.a]
      ++ [s.params.required.b] ++ u8 s.params.gapMin ++ i32 s.eval.alert.start
      ++ u8 (Rail.num s.eval.alert.rail) ++ u8 s.eval.alert.cls.val ++ [s.eval.alert.count] := by
  subst hedges
  simp only [State.section4, State.railSection, Alert.bytes, State.closeTick, Evaluator.openRuns, List.flatMap_cons, List.flatMap_nil,
    List.append_assoc, List.append_nil, PerRail.get]

/-- The current mark as READ_STATUS shows it (R182). -/
theorem markBytes_eq (e : EngineState) : match e with
    | .painting _ m => e.markBytes = [1] ++ u8 (Origin.code m.origin) ++ i32 m.target ++ u8 (m.spray.val + 1) ++ u8 m.cls.val
        ++ u8 (Arming.code m.arming) ++ u8 m.dash ++ u16 (min m.distance 65535) ++ u16 (min (m.elapsed / 100) 65535)
    | _ => e.markBytes = List.replicate 14 0 := by
  cases e
  all_goals rfl

/-- Sections 6 and 7 (R182). -/
theorem markerSection_shown (s : State) (r : Rail) : ∃ (point : Int) (mark sides : List Byte),
    sides.length = (s.marker.engines.get r).queue.length
      ∧ s.markerSection r = u8 (s.marker.engines.get r).state.code ++ u16 s.marker.lead ++ i32 (s.gun r) ++ i32 point ++ mark
          ++ u8 (s.marker.engines.get r).queue.length ++ (((s.marker.engines.get r).queue.zip sides).flatMap fun x =>
            i32 x.1.target ++ u8 (x.1.spray.val + 1) ++ u8 x.1.cls.val
              ++ u8 (Origin.code x.1.origin) ++ u8 (Arming.code x.1.arming) ++ [x.2])
      ∧ (∀ x rest, (s.marker.engines.get r).queue = x :: rest → point = s.firePoint x.target)
      ∧ (∀ x ∈ (s.marker.engines.get r).queue.zip sides, ∀ d, x.1.side = some d → x.2 = BitVec.ofNat 8 d.code)
      ∧ (match (s.marker.engines.get r).state with
        | .painting _ m => mark = [1] ++ u8 (Origin.code m.origin) ++ i32 m.target
            ++ u8 (m.spray.val + 1) ++ u8 m.cls.val ++ u8 (Arming.code m.arming) ++ u8 m.dash
            ++ u16 (min m.distance 65535) ++ u16 (min (m.elapsed / 100) 65535)
        | _ => mark = List.replicate 14 0) :=
  ⟨s.headFirePoint r, (s.marker.engines.get r).state.markBytes, s.sideBytes (s.marker.engines.get r).queue 1, sideBytes_length _ _ _,
    congrArg (_ ++ ·) (queueBytes_eq s (s.marker.engines.get r).queue 1), fun _ _ hqueue => firePoint_shown hqueue,
    sideBytes_shown s (s.marker.engines.get r).queue 1, markBytes_eq (s.marker.engines.get r).state⟩

theorem section_exists (s : State) {n : Nat} (h : n ≤ 8) : ∃ bs, s.sectionBytes n = some bs := by
  interval_cases n
  all_goals exact ⟨_, rfl⟩

theorem section_none (s : State) {n : Nat} (h : ¬ n ≤ 8) : s.sectionBytes n = none := by
  unfold State.sectionBytes
  split
  case h_10 => rfl
  all_goals omega

theorem readStatus_some {s : State} {b : Byte} {bs : List Byte} (h : Sender) (hsection : s.sectionBytes b.toNat = some bs) :
    readStatus h b s = (s.reply h 0x41 .ok ([b] ++ bs)).drew 20 := by
  unfold readStatus
  rw [hsection]

/-- Settles O51: a cell by where it stands, and each section of the status by its lemma. -/
theorem cellsAndStatusAreRead : Obligations.CellsAndStatusAreRead := by
  refine ⟨fun h a s hheld => ?_, fun h b s hheld => ?_⟩
  · cases hrail : railOf a.rail with
    | none =>
      refine exec_fields (owner := readCell h) rfl hheld ?_
      unfold readCell
      rw [hrail]
    | some r =>
      exact ⟨fun hopen => exec_fields (owner := readCell h) rfl hheld (readCell_open (s := s.take h 0x40) hrail h hopen),
        fun hclosed habsent => exec_fields (owner := readCell h) rfl hheld
          (readCell_absent (s := s.take h 0x40) hrail h hclosed habsent),
        fun hclosed x hx hindex hunique => exec_fields (owner := readCell h) rfl hheld
          (readCell_closed (s := s.take h 0x40) hrail h hclosed hx hindex hunique)⟩
  · split
    case isFalse hover =>
      refine exec_fields (owner := readStatus h) rfl hheld ?_
      unfold readStatus
      rw [section_none _ hover]
    case isTrue hle =>
      obtain ⟨bs, hsection⟩ := section_exists (s.take h 0x41) hle
      refine answers_command (owner := readStatus h) rfl hheld ⟨changesOnly_trans (changesOnly_mono (take_changes s h 0x41) (by simp))
        (readStatus_changes h b _), bs, hsection, ?_, ?_⟩
      · rw [readStatus_some h hsection]
        rfl
      generalize b.toNat = n at hle hsection
      interval_cases n
      · obtain rfl := Option.some.inj hsection
        obtain ⟨hupper, hlower⟩ := limitEnd_shown s 0
        exact ⟨s.limitEndCode 0, section0_eq s, hupper, hlower⟩
      · obtain rfl := Option.some.inj hsection
        refine ⟨s.oldestBytes, ?_, oldestBytes_spec s⟩
        unfold State.section1
        rw [show (s.take h 0x41).seq = s.seq from rfl, cycle_bytes]
        rfl
      · exact (Option.some.inj hsection).symm.trans (lane_bytes s.lanes.a)
      · exact (Option.some.inj hsection).symm.trans (lane_bytes s.lanes.b)
      · refine ⟨{ a := (s.take h 0x41).tailBytes .a 0, b := (s.take h 0x41).tailBytes .b 2 }, fun r => ?_,
          (Option.some.inj hsection).symm.trans (section4_eq (s.take h 0x41) rfl)⟩
        cases r
        · exact ⟨tailBytes_length _ .a 0, fun x y hx hy => tailBytes_ends (s := s.take h 0x41) 0 hx hy⟩
        · exact ⟨tailBytes_length _ .b 2, fun x y hx hy => tailBytes_ends (s := s.take h 0x41) 2 hx hy⟩
      · exact (Option.some.inj hsection).symm
      · obtain rfl := Option.some.inj hsection
        exact markerSection_shown (s.take h 0x41) .a
      · obtain rfl := Option.some.inj hsection
        exact markerSection_shown (s.take h 0x41) .b
      · exact (Option.some.inj hsection).symm.trans (section8_eq (s.take h 0x41))

end Sys2Proof.Machine
end
